-- ==== Sys2Proof/Word.lean ====
section
/-! DEFINITION. The byte, the byte sequence, and the two address arrays (00_scope.md R12, R13). -/

namespace Sys2Proof

/-- One byte, `u8` (R12). -/
abbrev Byte := BitVec 8

/-- `Bytes`: a finite sequence of bytes, index 0 first on the wire (R13). -/
abbrev Bytes := List Byte

/-- `MAC`: exactly six bytes in wire order, first byte first (R13). An array, not an integer (R43). -/
structure Mac where
  b0 : Byte
  b1 : Byte
  b2 : Byte
  b3 : Byte
  b4 : Byte
  b5 : Byte
  deriving DecidableEq, Repr, Inhabited

/-- `IP4`: exactly four bytes in wire order, first byte first (R13). An array, not an integer (R43). -/
structure Ip4 where
  b0 : Byte
  b1 : Byte
  b2 : Byte
  b3 : Byte
  deriving DecidableEq, Repr, Inhabited

end Sys2Proof
end

