-- ==== Sys2Proof/Config.lean ====
section
/-! DEFINITION. What an instance of the engine fixes (00_scope.md R10) and the free values: what the configuration
registers hold while `CFG_V = 0` (10_state.md R30, 93_implementation_defined.md U9). -/

namespace Sys2Proof

/-- The open parameters of R10, "each is a named argument of the model". They are fixed when the engine is
instantiated and no operation changes them (R28). -/
structure Config.Params where
  /-- `MAXLEN`: greatest length in bytes of any byte sequence presented to or returned by the engine. -/
  maxLen : Nat
  /-- `REPLY_TTL`: TTL of the IPv4 header of every reply. -/
  replyTtl : BitVec 8
  /-- `REPLY_IP_ID`: identification of the IPv4 header of every reply. -/
  replyIpId : BitVec 16
  /-- `REPLY_TOS`: type-of-service of the IPv4 header of every reply. -/
  replyTos : BitVec 8
  /-- `REPLY_IP_FLAGS`: flags of the IPv4 header of every reply. -/
  replyIpFlags : BitVec 3
  /-- `REPLY_TCP_WINDOW`: window size of every TCP reply segment. -/
  replyTcpWindow : BitVec 16
  deriving DecidableEq, Repr

/-- The range R10 gives `MAXLEN`: 54 ≤ MAXLEN ≤ 65535. The other parameters may hold any value of their width. -/
abbrev Config.Params.Valid (p : Config.Params) : Prop := 54 ≤ p.maxLen ∧ p.maxLen ≤ 65535

/-- The defaults of R10, the values every vector of 95_test_vectors.md uses. -/
def Config.defaultParams : Config.Params where
  maxLen := 1514
  replyTtl := 64#8
  replyIpId := 0#16
  replyTos := 0#8
  replyIpFlags := 0#3
  replyTcpWindow := 65535#16

/-- DESIGN CHOICE (log 8), safe: what `CFG_MAC` holds after the reset with this number. A free value: the spec says
that a model must not give it any value (R30), and no rule reads it while `CFG_V = 0` (R25). -/
opaque Config.freeMac : Nat → Mac

/-- DESIGN CHOICE (log 8), safe: what `CFG_IP` holds after the reset with this number. A free value (R30, U9). -/
opaque Config.freeIp : Nat → Ip4

/-- DESIGN CHOICE (log 8), safe: what `CFG_PORT` holds after the reset with this number. A free value (R30, U9). -/
opaque Config.freePort : Nat → BitVec 16

end Sys2Proof
end

