-- ==== Sys2Proof/Syntax.lean ====
section
/-! DEFINITION. The record types of 00_scope.md R16 and the operations of 30_encoding.md R61 (every row of
spec/opcode_table.json), each with its typed operands. Enumerated fields hold the raw integer (R17). -/

namespace Sys2Proof

/-- `EthernetFrame` (R16, layout R63). -/
structure EthernetFrame where
  dst : Mac
  src : Mac
  ethertype : BitVec 16
  payload : Bytes
  deriving DecidableEq, Repr, Inhabited

/-- `ArpMessage` (R16, layout R64). -/
structure ArpMessage where
  hwtype : BitVec 16
  prototype : BitVec 16
  hwlen : Byte
  protolen : Byte
  op : BitVec 16
  senderMac : Mac
  senderIp : Ip4
  targetMac : Mac
  targetIp : Ip4
  deriving DecidableEq, Repr, Inhabited

/-- `Ipv4Header` (R16, layout R65 to R67). The header only: it has no payload field (R135). -/
structure Ipv4Header where
  version : BitVec 4
  ihl : BitVec 4
  tos : Byte
  totalLength : BitVec 16
  id : BitVec 16
  flags : BitVec 3
  fragOffset : BitVec 13
  ttl : Byte
  protocol : Byte
  checksum : BitVec 16
  src : Ip4
  dst : Ip4
  deriving DecidableEq, Repr, Inhabited

/-- `IcmpMessage` (R16, layout R68). -/
structure IcmpMessage where
  type : Byte
  code : Byte
  checksum : BitVec 16
  id : BitVec 16
  seq : BitVec 16
  data : Bytes
  deriving DecidableEq, Repr, Inhabited

/-- `UdpMessage` (R16, layout R69). -/
structure UdpMessage where
  srcPort : BitVec 16
  dstPort : BitVec 16
  length : BitVec 16
  checksum : BitVec 16
  data : Bytes
  deriving DecidableEq, Repr, Inhabited

/-- `TcpMessage` (R16, layout R70, R71). -/
structure TcpMessage where
  srcPort : BitVec 16
  dstPort : BitVec 16
  seq : BitVec 32
  ack : BitVec 32
  dataOffset : BitVec 4
  flags : BitVec 6
  window : BitVec 16
  checksum : BitVec 16
  urgent : BitVec 16
  data : Bytes
  deriving DecidableEq, Repr, Inhabited

/-- The operations of R61, one constructor per row of spec/opcode_table.json, each with the operands of its row. -/
inductive Instr where
  | csum (b : Bytes)
  | ethParse (b : Bytes)
  | ethEnc (f : EthernetFrame)
  | arpParse (b : Bytes)
  | arpEnc (m : ArpMessage)
  | arpReply (q : ArpMessage) (localMac localIpv4 : Bytes)
  | ip4Parse (b : Bytes)
  | ip4Enc (h : Ipv4Header)
  | icmpParse (b : Bytes)
  | icmpEnc (m : IcmpMessage)
  | udpParse (b : Bytes)
  | udpEnc (m : UdpMessage) (srcIp dstIp : Ip4)
  | tcpParse (b : Bytes)
  | tcpEnc (m : TcpMessage) (srcIp dstIp : Ip4)
  | reply (frame : Bytes)
  | cfgSet (mac : Mac) (ip : Ip4) (port : BitVec 16)
  deriving DecidableEq, Repr

/-- The pseudo-operations of 30_encoding.md R83: "names that expand to an operation of rule R61, with no selector of their
own". -/
inductive PseudoOp where
  | checksum (b : Bytes)
  | parseEthernet (b : Bytes)
  | parseArp (b : Bytes)
  | parseIpv4 (b : Bytes)
  | parseIcmp (b : Bytes)
  | parseUdp (b : Bytes)
  | parseTcp (b : Bytes)
  | encodeEthernet (f : EthernetFrame)
  | buildReply (q : ArpMessage) (localMac localIpv4 : Bytes)
  /-- `VERIFY b`: "`CSUM b` with the expectation that the result is 0" -/
  | verify (b : Bytes)
  deriving DecidableEq, Repr

end Sys2Proof
end

