-- ==== Sys2Proof/Decode.lean ====
section
/-! DEFINITION. The request format (30_encoding.md R60), the operation table (R61) with its selector values, the decoder of
a request and its encoder. Operands are typed values, not serialised ("how they are carried is not architected",
R60): the only bits the spec encodes are the eight of the selector. -/

namespace Sys2Proof

/-- One typed operand value, of one of the operand types of R61. -/
inductive Operand where
  | bytes (b : Bytes)
  | mac (m : Mac)
  | ip4 (a : Ip4)
  | u16 (v : BitVec 16)
  | ethernetFrame (f : EthernetFrame)
  | arpMessage (m : ArpMessage)
  | ipv4Header (h : Ipv4Header)
  | icmpMessage (m : IcmpMessage)
  | udpMessage (m : UdpMessage)
  | tcpMessage (m : TcpMessage)
  deriving DecidableEq, Repr

/-- A request (R60): "an 8-bit operation selector `OP` followed by the operands of that operation as typed values".
DESIGN CHOICE (log 3): the operands are a list, in the order of R61's column. -/
structure Request where
  op : Byte
  operands : List Operand
  deriving DecidableEq, Repr

/-- The names of R61's rows, before their operands are read. -/
inductive Operation where
  | csum | ethParse | ethEnc | arpParse | arpEnc | arpReply | ip4Parse | ip4Enc
  | icmpParse | icmpEnc | udpParse | udpEnc | tcpParse | tcpEnc | reply | cfgSet
  deriving DecidableEq, Repr

/-- Why a request is no operation: `illegalOp` for a reserved selector (R62), `malformedOperands` for operands that are
not those of the selector's row (log 4). -/
inductive DecodeError where
  | illegalOp (op : Byte)
  | malformedOperands (operation : Operation)
  deriving DecidableEq, Repr

/-- One row of the operation table: its `match` and `mask` as spec/opcode_table.json gives them. -/
structure TableRow where
  operation : Operation
  pattern : Byte
  mask : Byte
  deriving DecidableEq, Repr

/-- The operation table (R61). -/
def operationTable : List TableRow :=
  [ ⟨.csum,      0x00#8, 0xFF#8⟩, ⟨.ethParse,  0x01#8, 0xFF#8⟩,
    ⟨.ethEnc,    0x02#8, 0xFF#8⟩, ⟨.arpParse,  0x03#8, 0xFF#8⟩,
    ⟨.arpEnc,    0x04#8, 0xFF#8⟩, ⟨.arpReply,  0x05#8, 0xFF#8⟩,
    ⟨.ip4Parse,  0x06#8, 0xFF#8⟩, ⟨.ip4Enc,    0x07#8, 0xFF#8⟩,
    ⟨.icmpParse, 0x08#8, 0xFF#8⟩, ⟨.icmpEnc,   0x09#8, 0xFF#8⟩,
    ⟨.udpParse,  0x0A#8, 0xFF#8⟩, ⟨.udpEnc,    0x0B#8, 0xFF#8⟩,
    ⟨.tcpParse,  0x0C#8, 0xFF#8⟩, ⟨.tcpEnc,    0x0D#8, 0xFF#8⟩,
    ⟨.reply,     0x0E#8, 0xFF#8⟩, ⟨.cfgSet,    0x0F#8, 0xFF#8⟩ ]

/-- Does a row select this `OP`: "exact match on all eight bits" (R61). -/
def rowMatches (op : Byte) (row : TableRow) : Bool :=
  op &&& row.mask == row.pattern

/-- The operation a selector selects, none for the reserved values 0x10 to 0xFF (R61, R62). -/
def selectOperation (op : Byte) : Option Operation :=
  (operationTable.find? (rowMatches op)).map (·.operation)

/-- An operation with its operands, where they are those of its row (R61). -/
def assemble : Operation → List Operand → Option Instr
  | .csum, [.bytes b] => some (.csum b)
  | .ethParse, [.bytes b] => some (.ethParse b)
  | .ethEnc, [.ethernetFrame f] => some (.ethEnc f)
  | .arpParse, [.bytes b] => some (.arpParse b)
  | .arpEnc, [.arpMessage m] => some (.arpEnc m)
  | .arpReply, [.arpMessage q, .bytes localMac, .bytes localIpv4] => some (.arpReply q localMac localIpv4)
  | .ip4Parse, [.bytes b] => some (.ip4Parse b)
  | .ip4Enc, [.ipv4Header h] => some (.ip4Enc h)
  | .icmpParse, [.bytes b] => some (.icmpParse b)
  | .icmpEnc, [.icmpMessage m] => some (.icmpEnc m)
  | .udpParse, [.bytes b] => some (.udpParse b)
  | .udpEnc, [.udpMessage m, .ip4 srcIp, .ip4 dstIp] => some (.udpEnc m srcIp dstIp)
  | .tcpParse, [.bytes b] => some (.tcpParse b)
  | .tcpEnc, [.tcpMessage m, .ip4 srcIp, .ip4 dstIp] => some (.tcpEnc m srcIp dstIp)
  | .reply, [.bytes frame] => some (.reply frame)
  | .cfgSet, [.mac mac, .ip4 ip, .u16 port] => some (.cfgSet mac ip port)
  | _, _ => none

/-- The decoder. A reserved selector is decided "before any operand is looked at" (R62, R245). -/
def decode (r : Request) : Except DecodeError Instr :=
  match selectOperation r.op with
  | none => .error (.illegalOp r.op)
  | some operation =>
    match assemble operation r.operands with
    | none => .error (.malformedOperands operation)
    | some i => .ok i

/-- The selector of each operation (R61). -/
def Instr.selector : Instr → Byte
  | .csum _ => 0x00#8
  | .ethParse _ => 0x01#8
  | .ethEnc _ => 0x02#8
  | .arpParse _ => 0x03#8
  | .arpEnc _ => 0x04#8
  | .arpReply _ _ _ => 0x05#8
  | .ip4Parse _ => 0x06#8
  | .ip4Enc _ => 0x07#8
  | .icmpParse _ => 0x08#8
  | .icmpEnc _ => 0x09#8
  | .udpParse _ => 0x0A#8
  | .udpEnc _ _ _ => 0x0B#8
  | .tcpParse _ => 0x0C#8
  | .tcpEnc _ _ _ => 0x0D#8
  | .reply _ => 0x0E#8
  | .cfgSet _ _ _ => 0x0F#8

/-- The operands of each operation as the list its row gives (R61). -/
def Instr.operands : Instr → List Operand
  | .csum b => [.bytes b]
  | .ethParse b => [.bytes b]
  | .ethEnc f => [.ethernetFrame f]
  | .arpParse b => [.bytes b]
  | .arpEnc m => [.arpMessage m]
  | .arpReply q localMac localIpv4 => [.arpMessage q, .bytes localMac, .bytes localIpv4]
  | .ip4Parse b => [.bytes b]
  | .ip4Enc h => [.ipv4Header h]
  | .icmpParse b => [.bytes b]
  | .icmpEnc m => [.icmpMessage m]
  | .udpParse b => [.bytes b]
  | .udpEnc m srcIp dstIp => [.udpMessage m, .ip4 srcIp, .ip4 dstIp]
  | .tcpParse b => [.bytes b]
  | .tcpEnc m srcIp dstIp => [.tcpMessage m, .ip4 srcIp, .ip4 dstIp]
  | .reply frame => [.bytes frame]
  | .cfgSet mac ip port => [.mac mac, .ip4 ip, .u16 port]

/-- The encoder: the request that asks for an operation (R60, R61). -/
def encode (i : Instr) : Request := { op := i.selector, operands := i.operands }

/-- The operation a pseudo-operation expands to (R83). -/
def PseudoOp.expand : PseudoOp → Instr
  | .checksum b => .csum b
  | .parseEthernet b => .ethParse b
  | .parseArp b => .arpParse b
  | .parseIpv4 b => .ip4Parse b
  | .parseIcmp b => .icmpParse b
  | .parseUdp b => .udpParse b
  | .parseTcp b => .tcpParse b
  | .encodeEthernet f => .ethEnc f
  | .buildReply q localMac localIpv4 => .arpReply q localMac localIpv4
  | .verify b => .csum b

/-- A `MAC` of zeros. -/
def zeroMac : Mac := ⟨0#8, 0#8, 0#8, 0#8, 0#8, 0#8⟩

/-- The address 0.0.0.0. -/
def zeroIp : Ip4 := ⟨0#8, 0#8, 0#8, 0#8⟩

/-- An ARP message with every field 0. -/
def zeroArp : ArpMessage := ⟨0#16, 0#16, 0#8, 0#8, 0#16, zeroMac, zeroIp, zeroMac, zeroIp⟩

/-- The operands of a row with every field 0 and every sequence empty: what stands for the "operand words of zeros"
of a table row, which has no operand bits (log 3). -/
def zeroOperands : Operation → List Operand
  | .csum => [.bytes []]
  | .ethParse => [.bytes []]
  | .ethEnc => [.ethernetFrame ⟨zeroMac, zeroMac, 0#16, []⟩]
  | .arpParse => [.bytes []]
  | .arpEnc => [.arpMessage zeroArp]
  | .arpReply => [.arpMessage zeroArp, .bytes [], .bytes []]
  | .ip4Parse => [.bytes []]
  | .ip4Enc => [.ipv4Header ⟨0#4, 0#4, 0#8, 0#16, 0#16, 0#3, 0#13, 0#8, 0#8, 0#16, zeroIp, zeroIp⟩]
  | .icmpParse => [.bytes []]
  | .icmpEnc => [.icmpMessage ⟨0#8, 0#8, 0#16, 0#16, 0#16, []⟩]
  | .udpParse => [.bytes []]
  | .udpEnc => [.udpMessage ⟨0#16, 0#16, 0#16, 0#16, []⟩, .ip4 zeroIp, .ip4 zeroIp]
  | .tcpParse => [.bytes []]
  | .tcpEnc => [.tcpMessage ⟨0#16, 0#16, 0#32, 0#32, 0#4, 0#6, 0#16, 0#16, 0#16, []⟩, .ip4 zeroIp, .ip4 zeroIp]
  | .reply => [.bytes []]
  | .cfgSet => [.mac zeroMac, .ip4 zeroIp, .u16 0#16]

/-- The request whose selector is the low eight bits of `w` and whose operands are all zero (log 3). A table row is one
selector byte (spec/opcode_table.json), so there are no further bits to lay out. -/
def tableRequest (w : Nat) : Request :=
  { op := BitVec.ofNat 8 w,
    operands := match selectOperation (BitVec.ofNat 8 w) with
      | none => []
      | some operation => zeroOperands operation }

/-- What the decoder reads from a table row's bits: rows have eight bits, numbered as the selector's (R61). -/
def decodeTableWord (nbits w : Nat) : Option Instr :=
  if nbits = 8 ∧ w < 256 then
    match decode (tableRequest w) with
    | .ok i => some i
    | .error _ => none
  else none

end Sys2Proof
end

