-- ==== Sys2Proof/Machine/State.lean ====
section
/-! DEFINITION. The state of the machine as plain data: the four configuration registers (10_state.md R24), which are all the
engine holds between transactions (R29), and beside them the host's side of the interface (R20, R21), the parameters
(00_scope.md R10) and the counter of free values. Also the responses (R18, R26, R240, R241), and the reasons a step stops. -/

namespace Sys2Proof.Machine

/-- The reasons of a `FormatError` (R241). -/
inductive FormatReason where
  | ethTooShort
  | arpTooShort
  | ip4TooShort
  | icmpTooShort
  | udpTooShort
  | tcpTooShort
  | tcpHeaderExceedsBuffer
  deriving DecidableEq, Repr

/-- The reasons of a `ValidationError` (R241). -/
inductive ValidationReason where
  | invalidAddressLength
  deriving DecidableEq, Repr

/-- What an operation raises in place of a result (R18, R240). -/
inductive EngineError where
  /-- "input shorter than required minimum, or declared-length fields exceeding actual buffer size" -/
  | formatError (reason : FormatReason)
  /-- "malformed local-address lengths when building an ARP reply" -/
  | validationError (reason : ValidationReason)
  /-- the selector is in 0x10 to 0xFF -/
  | illegalOp
  /-- `REPLY` was issued while `CFG_V = 0` -/
  | notConfigured
  deriving DecidableEq, Repr

/-- The result an operation returns with status `OK`, of the type its row of R61 names. -/
inductive Result where
  | u16 (v : BitVec 16)
  | bytes (b : Bytes)
  | ethernetFrame (f : EthernetFrame)
  | arpMessage (m : ArpMessage)
  | ipv4Header (h : Ipv4Header)
  | icmpMessage (m : IcmpMessage)
  | udpMessage (m : UdpMessage)
  | tcpMessage (m : TcpMessage)
  /-- `REPLY`: zero or one frame, and the informational bit `est` (R185, R195) -/
  | reply (out : Option Bytes) (est : BitVec 1)
  /-- `CFG.SET`: nothing beyond the status (R230) -/
  | nothing
  deriving DecidableEq, Repr

/-- One response (R18, R20): a result with status `OK`, or an error, which "carries no result value" (R243). -/
inductive Response where
  | ok (result : Result)
  | error (e : EngineError)
  deriving DecidableEq, Repr

/-- What the host may do to the engine (R21, R277), each between transactions: present a request, or reset it. -/
inductive HostEvent where
  | request (r : Request)
  | reset
  deriving DecidableEq, Repr

/-- The configuration registers CR0 to CR3 (R24), the only architectural state. -/
structure Registers where
  /-- `CFG_MAC`, CR0, 48 bits in wire order -/
  mac : Mac
  /-- `CFG_IP`, CR1, 32 bits in wire order -/
  ip : Ip4
  /-- `CFG_PORT`, CR2, the served TCP port -/
  port : BitVec 16
  /-- `CFG_V`, CR3: 1 when CR0 to CR2 have been written since reset -/
  v : BitVec 1
  deriving DecidableEq, Repr

/-- The whole machine. -/
structure State where
  /-- the engine's four configuration registers (R24) -/
  cfg : Registers
  /-- the parameters this engine was instantiated with (R10); never written (R28). Log 6. -/
  params : Config.Params
  /-- the host's events not yet taken, oldest first (R20, R53). Log 1. -/
  inbox : List HostEvent
  /-- the responses returned so far, in request order, newest last (R20). Never read by the engine (R26). Log 1. -/
  responses : List Response
  /-- the model's own counter of free values handed out at resets. Log 8. -/
  freeNext : Nat
  deriving DecidableEq, Repr

/-- No step faults: "there is no stuck state and no fatal state" (R246), and every error is a response (R243). -/
inductive Fault where
  deriving DecidableEq, Repr

/-- Why a step has no meaning. -/
inductive Refusal where
  /-- Raised by an arm of `exec` for an operation not modelled; safe. No arm raises it. -/
  | notModelled (mnemonic : String)
  /-- Raised by every meaning for a request outside the domain of R41: a byte sequence operand longer than `MAXLEN`, or
  an encoded result that would be. "a model gives it no meaning (it refuses the request; ...)". Safe (log 7). -/
  | beyondMaxLen
  /-- Raised by the step for a request whose operands are not those of its selector's row (R60, R61). Safe (log 4). -/
  | malformedOperands
  deriving DecidableEq, Repr

/-- The registers after the reset numbered `n` (R30, R270): `CFG_V = 0`, the others free values (log 8). -/
def resetRegisters (n : Nat) : Registers :=
  { mac := Config.freeMac n, ip := Config.freeIp n, port := Config.freePort n, v := 0#1 }

/-- The machine right after reset (R30, R270): nothing pending, nothing returned, parameters at the defaults of R10. -/
def State.reset : State :=
  { cfg := resetRegisters 0,
    params := Config.defaultParams,
    inbox := [],
    responses := [],
    freeNext := 1 }

end Sys2Proof.Machine
end

