-- ==== Sys2Proof/Machine/Operands.lean ====
section
/-! DEFINITION. Operand assembly: every way a field value is put together from bytes and taken apart into bytes
(00_scope.md R12 to R15, 20_memory.md R43 to R49, 30_encoding.md R81), and the length bound of an operand (R41). -/

namespace Sys2Proof

/-- `v[hi:lo]` of R12: "(v >> lo) mod 2^(hi−lo+1)", bit 0 the least significant. -/
def bitField (v hi lo : Nat) : Nat := (v >>> lo) % 2 ^ (hi + 1 - lo)

/-- `b[i]` (R13). Written only where a rule has established `i < len(b)`; the value past the end is never used
(log 9). -/
def byteAt (b : Bytes) (i : Nat) : Byte := b.getD i 0#8

/-- `MemRead(i, 2)`, `be16(b, i) = b[i] * 256 + b[i+1]` (R14). -/
def be16 (b : Bytes) (i : Nat) : BitVec 16 :=
  BitVec.ofNat 16 ((byteAt b i).toNat * 256 + (byteAt b (i + 1)).toNat)

/-- `MemRead(i, 4)`, `be32(b, i)` (R14). -/
def be32 (b : Bytes) (i : Nat) : BitVec 32 :=
  BitVec.ofNat 32 ((byteAt b i).toNat * 2 ^ 24 + (byteAt b (i + 1)).toNat * 2 ^ 16
    + (byteAt b (i + 2)).toNat * 2 ^ 8 + (byteAt b (i + 3)).toNat)

/-- `enc16(v) = [v[15:8], v[7:0]]` (R14). -/
def enc16 (v : BitVec 16) : Bytes :=
  [BitVec.ofNat 8 (bitField v.toNat 15 8), BitVec.ofNat 8 (bitField v.toNat 7 0)]

/-- `enc32(v) = [v[31:24], v[23:16], v[15:8], v[7:0]]` (R14). -/
def enc32 (v : BitVec 32) : Bytes :=
  [BitVec.ofNat 8 (bitField v.toNat 31 24), BitVec.ofNat 8 (bitField v.toNat 23 16),
   BitVec.ofNat 8 (bitField v.toNat 15 8), BitVec.ofNat 8 (bitField v.toNat 7 0)]

/-- The bytes of a `MAC`, "copied index for index" (R43). -/
def Mac.toBytes (m : Mac) : Bytes := [m.b0, m.b1, m.b2, m.b3, m.b4, m.b5]

/-- The bytes of an `IP4`, "copied index for index" (R43). -/
def Ip4.toBytes (a : Ip4) : Bytes := [a.b0, a.b1, a.b2, a.b3]

/-- `b[i..i+6)` as a `MAC` (R13, R43). -/
def macAt (b : Bytes) (i : Nat) : Mac :=
  ⟨byteAt b i, byteAt b (i + 1), byteAt b (i + 2), byteAt b (i + 3), byteAt b (i + 4), byteAt b (i + 5)⟩

/-- `b[i..i+4)` as an `IP4` (R13, R43). -/
def ip4At (b : Bytes) (i : Nat) : Ip4 :=
  ⟨byteAt b i, byteAt b (i + 1), byteAt b (i + 2), byteAt b (i + 3)⟩

/-- `CFG_MAC` as the 48 bits of R24: "byte 0 of the address is bits 47:40, byte 5 is bits 7:0". -/
def Mac.toBits (m : Mac) : BitVec 48 := m.b0 ++ m.b1 ++ m.b2 ++ m.b3 ++ m.b4 ++ m.b5

/-- `CFG_IP` as the 32 bits of R24: "byte 0 is bits 31:24, byte 3 is bits 7:0". -/
def Ip4.toBits (a : Ip4) : BitVec 32 := a.b0 ++ a.b1 ++ a.b2 ++ a.b3

/-- A `Bytes` operand of length six as a `MAC`, none of another length (R13, R122). -/
def Mac.ofBytes? : Bytes → Option Mac
  | [b0, b1, b2, b3, b4, b5] => some ⟨b0, b1, b2, b3, b4, b5⟩
  | _ => none

/-- A `Bytes` operand of length four as an `IP4`, none of another length (R13, R122). -/
def Ip4.ofBytes? : Bytes → Option Ip4
  | [b0, b1, b2, b3] => some ⟨b0, b1, b2, b3⟩
  | _ => none

/-- R41: a byte sequence of this length may cross the operation interface. -/
def fits (p : Config.Params) (len : Nat) : Bool := decide (len ≤ p.maxLen)

end Sys2Proof
end

