-- ==== Sys2Proof/Machine/Ops.lean ====
section
/-! DEFINITION. The named operations over the state: returning a response, raising an error (the engine's "trap entry",
60_exceptions.md R243), one whole transaction (10_state.md R20), writing the configuration (48_config.md R230), the
reset event (70_reset_and_hazards.md R270), and what a step does when there is nothing to execute. -/

namespace Sys2Proof.Machine

/-- Return one response: it follows the responses of the earlier requests (R20, R53 (a)). Nothing else changes. -/
def State.respond (s : State) (r : Response) : State :=
  { s with responses := s.responses ++ [r] }

/-- `raise E(reason)` (R15, R243): "An error ends its transaction and nothing more". The response carries the error and no
result; no register is saved, written or restored. -/
def State.raise (s : State) (e : EngineError) : State :=
  s.respond (.error e)

/-- The host's event at the front has been taken. -/
def State.takeEvent (s : State) (rest : List HostEvent) : State :=
  { s with inbox := rest }

/-- The four writes of `CFG.SET`, which "take effect together" (R230, R50). -/
def State.configure (s : State) (mac : Mac) (ip : Ip4) (port : BitVec 16) : State :=
  { s with cfg := { mac := mac, ip := ip, port := port, v := 1#1 } }

/-- The reset event (R270): `CFG_V` becomes 0 and the other three registers hold free values (log 8). The parameters are
the same before and after (R271), and it returns nothing to the host (R277). What the host has presented or received
is the host's, not the engine's, and stays (log 1). -/
def State.resetEngine (s : State) : State :=
  { s with cfg := resetRegisters s.freeNext, freeNext := s.freeNext + 1 }

/-- One transaction of an operation that writes no register (R20, R243): outside the domain of R41 it has no meaning;
inside it the operation's outcome is the response, be it a result or an error. -/
def transact (inDomain : Bool) (outcome : Except EngineError Result) (s : State) :
    Host.Outcome State Fault Refusal :=
  if inDomain then
    match outcome with
    | .ok r => .next (s.respond (.ok r))
    | .error e => .next (s.raise e)
  else .refused .beyondMaxLen

/-- A step with no host event to take: "nothing inside the engine happens except in answer to a request" (R247), so the
machine stays as it is. DESIGN CHOICE (log 2). -/
def State.idle (s : State) : Host.Outcome State Fault Refusal := .next s

/-- A request that is no operation: a reserved selector gets the response `IllegalOp` and changes no state (R62); operands
that are not the selector's have no meaning (log 4). -/
def answerUndecoded (e : DecodeError) (s : State) : Host.Outcome State Fault Refusal :=
  match e with
  | .illegalOp _ => .next (s.raise .illegalOp)
  | .malformedOperands _ => .refused .malformedOperands

end Sys2Proof.Machine
end

