-- ==== Sys2Proof/Machine/Configure.lean ====
section
/-! DEFINITION. The configuration operation: `CFG.SET` (48_config.md R230). -/

namespace Sys2Proof.Machine

/-- `CFG.SET` (R230): the four registers are written together, then `OK` with nothing beyond the status. Any values are
accepted. -/
def execCfgSet (mac : Mac) (ip : Ip4) (port : BitVec 16) (s : State) : Host.Outcome State Fault Refusal :=
  transact true (.ok .nothing) (s.configure mac ip port)

end Sys2Proof.Machine
end

