-- ==== Sys2Proof/Machine/Constants.lean ====
section
/-! DEFINITION. The constants of the engine: the values of the enumerated fields (30_encoding.md R75 to R78) and the
parameters fixed by the source (00_scope.md R9). -/

namespace Sys2Proof

/-- EtherType of IPv4 (R75). -/
def ethertypeIpv4 : BitVec 16 := 0x0800#16
/-- EtherType of ARP (R75). -/
def ethertypeArp : BitVec 16 := 0x0806#16
/-- EtherType of IPv6 (R75). It "matters to no result": the reply engine treats it as any other (R186). -/
def ethertypeIpv6 : BitVec 16 := 0x86DD#16
/-- `is_ipv4(t)` (R75). -/
def isIpv4 (t : BitVec 16) : Bool := t = ethertypeIpv4
/-- `is_arp(t)` (R75). -/
def isArp (t : BitVec 16) : Bool := t = ethertypeArp
/-- `is_ipv6(t)` (R75). -/
def isIpv6 (t : BitVec 16) : Bool := t = ethertypeIpv6
/-- ARP hardware type Ethernet (R76). -/
def arpHwEthernet : BitVec 16 := 1#16
/-- ARP protocol type IPv4 (R76). -/
def arpProtoIpv4 : BitVec 16 := 0x0800#16
/-- ARP `hwlen` for Ethernet (R76). -/
def arpHwLen : Byte := 6#8
/-- ARP `protolen` for IPv4 (R76). -/
def arpProtoLen : Byte := 4#8
/-- ARP operation Request (R76). -/
def arpOpRequest : BitVec 16 := 1#16
/-- ARP operation Reply (R76). -/
def arpOpReply : BitVec 16 := 2#16
/-- `is_arp_request(m)` (R76). -/
def isArpRequest (m : ArpMessage) : Bool := m.op = arpOpRequest
/-- `is_arp_reply(m)` (R76). -/
def isArpReply (m : ArpMessage) : Bool := m.op = arpOpReply
/-- IPv4 protocol ICMP (R77). -/
def protoIcmp : Byte := 1#8
/-- IPv4 protocol TCP, `PROTO_TCP` (R9, R77). -/
def protoTcp : Byte := 6#8
/-- IPv4 protocol UDP, `PROTO_UDP` (R9, R77). -/
def protoUdp : Byte := 17#8
/-- ICMP type Echo Request (R78). -/
def icmpEchoRequest : Byte := 8#8
/-- ICMP type Echo Reply (R78). -/
def icmpEchoReply : Byte := 0#8
/-- `ISS_SYN`: sequence number of a SYN+ACK reply (R9). -/
def issSyn : BitVec 32 := 1000#32
/-- `ISS_FIN`: sequence number of a FIN+ACK reply, and the acknowledgment number rule 4 looks for (R9). -/
def issFin : BitVec 32 := 1001#32

end Sys2Proof
end

