-- ==== Sys2Proof/Machine/Arp.lean ====
section
/-! DEFINITION. The address-resolution codec: `ARP.PARSE`, `ARP.ENC`, `ARP.REPLY` (42_arp.md R120 to R122; layout
30_encoding.md R64). -/

namespace Sys2Proof.Machine

/-- `ARP.PARSE(IN)` (R120). Bytes 28 onward are ignored; no field is validated. -/
def parseArp (b : Bytes) : Except EngineError ArpMessage :=
  if b.length < 28 then .error (.formatError .arpTooShort)
  else .ok
    { hwtype := be16 b 0
      prototype := be16 b 2
      hwlen := byteAt b 4
      protolen := byteAt b 5
      op := be16 b 6
      senderMac := macAt b 8
      senderIp := ip4At b 14
      targetMac := macAt b 18
      targetIp := ip4At b 24 }

/-- `ARP.ENC(m)` (R121). -/
def encodeArp (m : ArpMessage) : Bytes :=
  enc16 m.hwtype ++ enc16 m.prototype ++ [m.hwlen, m.protolen] ++ enc16 m.op
    ++ m.senderMac.toBytes ++ m.senderIp.toBytes ++ m.targetMac.toBytes ++ m.targetIp.toBytes

/-- The record `ARP.REPLY` encodes (R122): the reply's constants, the local identity as sender, the request's sender as
target. -/
def arpReplyMessage (q : ArpMessage) (localMac : Mac) (localIp : Ip4) : ArpMessage :=
  { hwtype := arpHwEthernet
    prototype := arpProtoIpv4
    hwlen := arpHwLen
    protolen := arpProtoLen
    op := arpOpReply
    senderMac := localMac
    senderIp := localIp
    targetMac := q.senderMac
    targetIp := q.senderIp }

/-- `ARP.REPLY(q, local_mac, local_ipv4)` (R122). The two length tests share one error. -/
def buildArpReply (q : ArpMessage) (localMac localIpv4 : Bytes) : Except EngineError Bytes :=
  match Mac.ofBytes? localMac, Ip4.ofBytes? localIpv4 with
  | some mac, some ip => .ok (encodeArp (arpReplyMessage q mac ip))
  | _, _ => .error (.validationError .invalidAddressLength)

/-- `ARP.PARSE` as an operation (R120). -/
def execArpParse (b : Bytes) (s : State) : Host.Outcome State Fault Refusal :=
  transact (fits s.params b.length) ((parseArp b).map .arpMessage) s

/-- `ARP.ENC` as an operation (R121). Its 28 bytes are below every `MAXLEN` (R10). -/
def execArpEnc (m : ArpMessage) (s : State) : Host.Outcome State Fault Refusal :=
  transact true (.ok (.bytes (encodeArp m))) s

/-- `ARP.REPLY` as an operation (R122). It reads no register: the identity is in the operands (R24). -/
def execArpReply (q : ArpMessage) (localMac localIpv4 : Bytes) (s : State) : Host.Outcome State Fault Refusal :=
  transact (fits s.params localMac.length && fits s.params localIpv4.length)
    ((buildArpReply q localMac localIpv4).map .bytes) s

end Sys2Proof.Machine
end

