-- ==== Sys2Proof/Machine/Ethernet.lean ====
section
/-! DEFINITION. The frame codec: `ETH.PARSE`, `ETH.ENC` (41_ethernet.md R110, R111; layout 30_encoding.md R63). -/

namespace Sys2Proof.Machine

/-- `ETH.PARSE(IN)` (R110). -/
def parseEthernet (b : Bytes) : Except EngineError EthernetFrame :=
  if b.length < 14 then .error (.formatError .ethTooShort)
  else .ok
    { dst := macAt b 0
      src := macAt b 6
      ethertype := be16 b 12
      payload := b.drop 14 }

/-- `ETH.ENC(f)` (R111). -/
def encodeEthernet (f : EthernetFrame) : Bytes :=
  f.dst.toBytes ++ f.src.toBytes ++ enc16 f.ethertype ++ f.payload

/-- `ETH.PARSE` as an operation (R110). -/
def execEthParse (b : Bytes) (s : State) : Host.Outcome State Fault Refusal :=
  transact (fits s.params b.length) ((parseEthernet b).map .ethernetFrame) s

/-- `ETH.ENC` as an operation (R111), "with `14 + len(f.payload) ≤ MAXLEN`". -/
def execEthEnc (f : EthernetFrame) (s : State) : Host.Outcome State Fault Refusal :=
  transact (fits s.params (14 + f.payload.length)) (.ok (.bytes (encodeEthernet f))) s

end Sys2Proof.Machine
end

