-- ==== Sys2Proof/Machine/Flags.lean ====
section
/-! DEFINITION. The engine stores no flag (10_state.md R26). Here are the values that play the part of flags: the status and
reason codes of a response (60_exceptions.md R240, R241), the `est` bit, and the flag bits of a TCP segment
(30_encoding.md R71, R79). -/

namespace Sys2Proof

/-- FIN, bit 0 of `flags` (R71). -/
def tcpFin : BitVec 6 := 0x01#6
/-- SYN, bit 1 (R71). -/
def tcpSyn : BitVec 6 := 0x02#6
/-- RST, bit 2 (R71). -/
def tcpRst : BitVec 6 := 0x04#6
/-- PSH, bit 3 (R71). -/
def tcpPsh : BitVec 6 := 0x08#6
/-- ACK, bit 4 (R71). -/
def tcpAck : BitVec 6 := 0x10#6
/-- URG, bit 5 (R71). -/
def tcpUrg : BitVec 6 := 0x20#6

/-- `has(f, m) := (f & m) ≠ 0` (R79): looks at the bits of `m` whatever the others are. -/
def hasFlag (f m : BitVec 6) : Bool := f &&& m != 0#6

namespace Machine

/-- The reason code of a `FormatError` (R241). -/
def FormatReason.reasonCode : FormatReason → Nat
  | .ethTooShort => 1
  | .arpTooShort => 2
  | .ip4TooShort => 3
  | .icmpTooShort => 4
  | .udpTooShort => 5
  | .tcpTooShort => 6
  | .tcpHeaderExceedsBuffer => 7

/-- The reason code of a `ValidationError` (R241). -/
def ValidationReason.reasonCode : ValidationReason → Nat
  | .invalidAddressLength => 1

/-- The status code of a response (R240): 0 `OK`, 1 `FormatError`, 2 `ValidationError`, 3 `IllegalOp`, 4 `NotConfigured`. -/
def Response.statusCode : Response → Nat
  | .ok _ => 0
  | .error (.formatError _) => 1
  | .error (.validationError _) => 2
  | .error .illegalOp => 3
  | .error .notConfigured => 4

/-- The reason a response carries, "present when `status` is not `OK`" (R26); `IllegalOp` and `NotConfigured` "carry no
reason" (R241). -/
def Response.reasonCode : Response → Option Nat
  | .error (.formatError r) => some r.reasonCode
  | .error (.validationError r) => some r.reasonCode
  | _ => none

/-- The result a response carries; an error carries none, "no partial record, no partial frame" (R243). -/
def Response.result : Response → Option Result
  | .ok r => some r
  | .error _ => none

/-- The `est` bit of a response, present in a `REPLY` result only (R26, R195, R243). -/
def Response.est : Response → Option (BitVec 1)
  | .ok (.reply _ est) => some est
  | _ => none

end Machine
end Sys2Proof
end

