-- ==== Sys2Proof/Machine/Checksum.lean ====
section
/-! DEFINITION. The checksum engine: `CSUM` (40_checksum.md R100 to R108), the pseudo-header (30_encoding.md R72) and the
compute-then-patch helper (R107). -/

namespace Sys2Proof

/-- `wsum(b)` (R101): the 16-bit big-endian words of `b` paired from index 0, summed over the naturals; an odd trailing byte
"is treated as the high byte of a final zero-padded word". -/
def wordSum : Bytes → Nat
  | [] => 0
  | [x] => x.toNat * 256
  | x :: y :: rest => x.toNat * 256 + y.toNat + wordSum rest

/-- One pass of the loop of R102. -/
def foldPass (s : Nat) : Nat := (s &&& 0xFFFF) + (s >>> 16)

/-- The loop of R102, at most `fuel` passes. -/
def foldLoop : Nat → Nat → Nat
  | 0, s => s
  | fuel + 1, s => if s > 0xFFFF then foldLoop fuel (foldPass s) else s

/-- `fold(s)` (R102). Each pass strictly lowers `s`, so `s` passes are enough (lemma `fold_step`). -/
def fold (s : Nat) : Nat := foldLoop s s

/-- `checksum(b)` (R100): the one's complement of the folded word sum. -/
def checksum (b : Bytes) : BitVec 16 := BitVec.ofNat 16 (0xFFFF - fold (wordSum b))

/-- `patch16(b, off, v)` (R107). -/
def patch16 (b : Bytes) (off : Nat) (v : BitVec 16) : Bytes :=
  b.take off ++ enc16 v ++ b.drop (off + 2)

/-- `pseudo(src_ip, dst_ip, proto, L) = src_ip ‖ dst_ip ‖ [0x00, proto] ‖ enc16(L)` (R72). `L` is at most `MAXLEN ≤ 65535`
in every use, "with no wrap" (R41). -/
def pseudoHeader (srcIp dstIp : Ip4) (proto : Byte) (len : Nat) : Bytes :=
  srcIp.toBytes ++ dstIp.toBytes ++ [0#8, proto] ++ enc16 (BitVec.ofNat 16 len)

namespace Machine

/-- `CSUM` (R100): total over every byte sequence, the empty one included. -/
def execCsum (b : Bytes) (s : State) : Host.Outcome State Fault Refusal :=
  transact (fits s.params b.length) (.ok (.u16 (checksum b))) s

end Machine
end Sys2Proof
end

