-- ==== Sys2Proof/Machine/Icmp.lean ====
section
/-! DEFINITION. The ICMP codec: `ICMP.PARSE`, `ICMP.ENC` (44_icmp.md R150 to R152; layout 30_encoding.md R68). -/

namespace Sys2Proof.Machine

/-- `ICMP.PARSE(IN)` (R150). Bytes 4 to 7 are read as `id` and `seq` whatever the type is. -/
def parseIcmp (b : Bytes) : Except EngineError IcmpMessage :=
  if b.length < 8 then .error (.formatError .icmpTooShort)
  else .ok
    { type := byteAt b 0
      code := byteAt b 1
      checksum := be16 b 2
      id := be16 b 4
      seq := be16 b 6
      data := b.drop 8 }

/-- The message with the checksum field as zero: `t` of R151. -/
def icmpUnsummed (m : IcmpMessage) : Bytes :=
  [m.type, m.code] ++ [0#8, 0#8] ++ enc16 m.id ++ enc16 m.seq ++ m.data

/-- `ICMP.ENC(m)` (R151). No pseudo-header (R152), no zero remap (R73). -/
def encodeIcmp (m : IcmpMessage) : Bytes :=
  patch16 (icmpUnsummed m) 2 (checksum (icmpUnsummed m))

/-- `ICMP.PARSE` as an operation (R150). -/
def execIcmpParse (b : Bytes) (s : State) : Host.Outcome State Fault Refusal :=
  transact (fits s.params b.length) ((parseIcmp b).map .icmpMessage) s

/-- `ICMP.ENC` as an operation (R151), "with `8 + len(m.data) ≤ MAXLEN`". -/
def execIcmpEnc (m : IcmpMessage) (s : State) : Host.Outcome State Fault Refusal :=
  transact (fits s.params (8 + m.data.length)) (.ok (.bytes (encodeIcmp m))) s

end Sys2Proof.Machine
end

