-- ==== Sys2Proof/Machine/Ipv4.lean ====
section
/-! DEFINITION. The network-layer codec: `IP4.PARSE`, `IP4.ENC` (43_ipv4.md R135, R136; layout 30_encoding.md R65 to R67). -/

namespace Sys2Proof.Machine

/-- `IP4.PARSE(IN)` (R135). Permissive: only the length is tested. -/
def parseIpv4 (b : Bytes) : Except EngineError Ipv4Header :=
  if b.length < 20 then .error (.formatError .ip4TooShort)
  else .ok
    { version := BitVec.ofNat 4 (bitField (byteAt b 0).toNat 7 4)
      ihl := BitVec.ofNat 4 (bitField (byteAt b 0).toNat 3 0)
      tos := byteAt b 1
      totalLength := be16 b 2
      id := be16 b 4
      flags := BitVec.ofNat 3 (bitField (be16 b 6).toNat 15 13)
      fragOffset := BitVec.ofNat 13 (bitField (be16 b 6).toNat 12 0)
      ttl := byteAt b 8
      protocol := byteAt b 9
      checksum := be16 b 10
      src := ip4At b 12
      dst := ip4At b 16 }

/-- The 20 header bytes with the checksum field as zero: `t` of R136. -/
def ipv4Unsummed (h : Ipv4Header) : Bytes :=
  [BitVec.ofNat 8 (h.version.toNat * 16 + h.ihl.toNat), h.tos]
    ++ enc16 h.totalLength ++ enc16 h.id
    ++ enc16 (BitVec.ofNat 16 (h.flags.toNat * 8192 + h.fragOffset.toNat))
    ++ [h.ttl, h.protocol]
    ++ [0#8, 0#8]
    ++ h.src.toBytes ++ h.dst.toBytes

/-- `IP4.ENC(h)` (R136). The record's own checksum is ignored; there is no zero remap (R73). -/
def encodeIpv4 (h : Ipv4Header) : Bytes :=
  patch16 (ipv4Unsummed h) 10 (checksum (ipv4Unsummed h))

/-- `IP4.PARSE` as an operation (R135). -/
def execIp4Parse (b : Bytes) (s : State) : Host.Outcome State Fault Refusal :=
  transact (fits s.params b.length) ((parseIpv4 b).map .ipv4Header) s

/-- `IP4.ENC` as an operation (R136). Its 20 bytes are below every `MAXLEN` (R10). -/
def execIp4Enc (h : Ipv4Header) (s : State) : Host.Outcome State Fault Refusal :=
  transact true (.ok (.bytes (encodeIpv4 h))) s

end Sys2Proof.Machine
end

