-- ==== Sys2Proof/Machine/Tcp.lean ====
section
/-! DEFINITION. The TCP codec: `TCP.PARSE`, `TCP.ENC` (46_tcp.md R170, R171; layout 30_encoding.md R70 to R72). -/

namespace Sys2Proof.Machine

/-- The data offset of a segment: the high nibble of byte 12 (R71). -/
def tcpDataOffset (b : Bytes) : Nat := bitField (byteAt b 12).toNat 7 4

/-- `TCP.PARSE(IN)` (R170). The length is tested before the data offset is read; an offset below 5 is no failure; options
are skipped; reserved bits are masked off. -/
def parseTcp (b : Bytes) : Except EngineError TcpMessage :=
  if b.length < 20 then .error (.formatError .tcpTooShort)
  else if b.length < 4 * tcpDataOffset b then .error (.formatError .tcpHeaderExceedsBuffer)
  else .ok
    { srcPort := be16 b 0
      dstPort := be16 b 2
      seq := be32 b 4
      ack := be32 b 8
      dataOffset := BitVec.ofNat 4 (tcpDataOffset b)
      flags := BitVec.ofNat 6 (bitField (byteAt b 13).toNat 5 0)
      window := be16 b 14
      checksum := be16 b 16
      urgent := be16 b 18
      data := b.drop (4 * tcpDataOffset b) }

/-- "if data_offset is unset, defaults to 5" (R171): unset is 0. -/
def tcpEncodedOffset (off : BitVec 4) : BitVec 4 := if off = 0#4 then 5#4 else off

/-- The segment with the checksum field as zero: `t` of R171. The header is always 20 bytes. -/
def tcpUnsummed (m : TcpMessage) : Bytes :=
  enc16 m.srcPort ++ enc16 m.dstPort ++ enc32 m.seq ++ enc32 m.ack
    ++ [BitVec.ofNat 8 ((tcpEncodedOffset m.dataOffset).toNat * 16), m.flags.setWidth 8]
    ++ enc16 m.window ++ [0#8, 0#8] ++ enc16 m.urgent
    ++ m.data

/-- The checksum `TCP.ENC` writes (R171): over pseudo-header and segment, no remap. -/
def tcpChecksum (m : TcpMessage) (srcIp dstIp : Ip4) : BitVec 16 :=
  checksum (pseudoHeader srcIp dstIp protoTcp (20 + m.data.length) ++ tcpUnsummed m)

/-- `TCP.ENC(m, src_ip, dst_ip)` (R171). -/
def encodeTcp (m : TcpMessage) (srcIp dstIp : Ip4) : Bytes :=
  patch16 (tcpUnsummed m) 16 (tcpChecksum m srcIp dstIp)

/-- `TCP.PARSE` as an operation (R170). -/
def execTcpParse (b : Bytes) (s : State) : Host.Outcome State Fault Refusal :=
  transact (fits s.params b.length) ((parseTcp b).map .tcpMessage) s

/-- `TCP.ENC` as an operation (R171), "with `20 + len(m.data) ≤ MAXLEN`". -/
def execTcpEnc (m : TcpMessage) (srcIp dstIp : Ip4) (s : State) : Host.Outcome State Fault Refusal :=
  transact (fits s.params (20 + m.data.length)) (.ok (.bytes (encodeTcp m srcIp dstIp))) s

end Sys2Proof.Machine
end

