-- ==== Sys2Proof/Machine/Udp.lean ====
section
/-! DEFINITION. The UDP codec: `UDP.PARSE`, `UDP.ENC` (45_udp.md R160, R161; layout 30_encoding.md R69, R72). -/

namespace Sys2Proof.Machine

/-- `UDP.PARSE(IN)` (R160). `length` is recorded, not checked, and does not trim the data. -/
def parseUdp (b : Bytes) : Except EngineError UdpMessage :=
  if b.length < 8 then .error (.formatError .udpTooShort)
  else .ok
    { srcPort := be16 b 0
      dstPort := be16 b 2
      length := be16 b 4
      checksum := be16 b 6
      data := b.drop 8 }

/-- The segment with the checksum field as zero: `t` of R161. Its length field is the true length. -/
def udpUnsummed (m : UdpMessage) : Bytes :=
  enc16 m.srcPort ++ enc16 m.dstPort ++ enc16 (BitVec.ofNat 16 (8 + m.data.length)) ++ [0#8, 0#8] ++ m.data

/-- "remaps a zero result to 0xFFFF" (R161). -/
def udpRemap (c : BitVec 16) : BitVec 16 := if c = 0#16 then 0xFFFF#16 else c

/-- The checksum `UDP.ENC` writes (R161): over pseudo-header and segment, remapped. -/
def udpChecksum (m : UdpMessage) (srcIp dstIp : Ip4) : BitVec 16 :=
  udpRemap (checksum (pseudoHeader srcIp dstIp protoUdp (8 + m.data.length) ++ udpUnsummed m))

/-- `UDP.ENC(m, src_ip, dst_ip)` (R161). -/
def encodeUdp (m : UdpMessage) (srcIp dstIp : Ip4) : Bytes :=
  patch16 (udpUnsummed m) 6 (udpChecksum m srcIp dstIp)

/-- `UDP.PARSE` as an operation (R160). -/
def execUdpParse (b : Bytes) (s : State) : Host.Outcome State Fault Refusal :=
  transact (fits s.params b.length) ((parseUdp b).map .udpMessage) s

/-- `UDP.ENC` as an operation (R161), "with `8 + len(m.data) ≤ MAXLEN`". -/
def execUdpEnc (m : UdpMessage) (srcIp dstIp : Ip4) (s : State) : Host.Outcome State Fault Refusal :=
  transact (fits s.params (8 + m.data.length)) (.ok (.bytes (encodeUdp m srcIp dstIp))) s

end Sys2Proof.Machine
end

