-- ==== Sys2Proof/Machine/Reply.lean ====
section
/-! DEFINITION. The stateless reply engine: `REPLY` (47_reply.md R185 to R201). Each function is the spec's function of that
name; `cfg` are the configuration registers and `p` the parameters of 00_scope.md R10. A result is the frame to send, if any,
and the bit `est`. -/

namespace Sys2Proof.Machine

/-- `ip_reply_frame` (R197), with the Ethernet addressing of R198. -/
def ipReplyFrame (p : Config.Params) (cfg : Registers) (eth : EthernetFrame) (ip : Ipv4Header) (body : Bytes) : Bytes :=
  encodeEthernet
    { dst := eth.src
      src := cfg.mac
      ethertype := ethertypeIpv4
      payload :=
        encodeIpv4
          { version := 4#4
            ihl := 5#4
            tos := p.replyTos
            totalLength := BitVec.ofNat 16 (20 + body.length)
            id := p.replyIpId
            flags := p.replyIpFlags
            fragOffset := 0#13
            ttl := p.replyTtl
            protocol := ip.protocol
            checksum := 0#16
            src := cfg.ip
            dst := ip.src }
        ++ body }

/-- `reply_arp` (R187, R188). -/
def replyArp (cfg : Registers) (eth : EthernetFrame) : Except EngineError (Option Bytes × BitVec 1) :=
  match parseArp eth.payload with
  | .error e => .error e
  | .ok arp =>
    if arp.op ≠ arpOpRequest then .ok (none, 0#1)
    else if arp.targetIp ≠ cfg.ip then .ok (none, 0#1)
    else
      match buildArpReply arp cfg.mac.toBytes cfg.ip.toBytes with
      | .error e => .error e
      | .ok body =>
        .ok (some (encodeEthernet { dst := eth.src, src := cfg.mac, ethertype := ethertypeArp, payload := body }), 0#1)

/-- `reply_icmp` (R191). -/
def replyIcmp (p : Config.Params) (cfg : Registers) (eth : EthernetFrame) (ip : Ipv4Header) (seg : Bytes) :
    Except EngineError (Option Bytes × BitVec 1) :=
  match parseIcmp seg with
  | .error e => .error e
  | .ok m =>
    if m.type ≠ icmpEchoRequest then .ok (none, 0#1)
    else
      .ok (some (ipReplyFrame p cfg eth ip
        (encodeIcmp { type := icmpEchoReply, code := 0#8, checksum := 0#16, id := m.id, seq := m.seq, data := m.data })), 0#1)

/-- `reply_udp` (R192): every datagram is echoed, ports swapped. -/
def replyUdp (p : Config.Params) (cfg : Registers) (eth : EthernetFrame) (ip : Ipv4Header) (seg : Bytes) :
    Except EngineError (Option Bytes × BitVec 1) :=
  match parseUdp seg with
  | .error e => .error e
  | .ok m =>
    .ok (some (ipReplyFrame p cfg eth ip
      (encodeUdp { srcPort := m.dstPort, dstPort := m.srcPort, length := 0#16, checksum := 0#16, data := m.data }
        cfg.ip ip.src)), 0#1)

/-- `tcp_reply_segment` (R194). -/
def tcpReplySegment (p : Config.Params) (cfg : Registers) (m : TcpMessage) (fl : BitVec 6) (sq a : BitVec 32)
    (ip : Ipv4Header) : Bytes :=
  encodeTcp
    { srcPort := m.dstPort
      dstPort := m.srcPort
      seq := sq
      ack := a
      dataOffset := 5#4
      flags := fl
      window := p.replyTcpWindow
      checksum := 0#16
      urgent := 0#16
      data := [] }
    cfg.ip ip.src

/-- The transition table of R193, "evaluated in this fixed priority order": the flags and sequence number of the reply, if
there is one, and `est` (R195). -/
def tcpReaction (cfg : Registers) (m : TcpMessage) : Option (BitVec 6 × BitVec 32) × BitVec 1 :=
  if m.dstPort ≠ cfg.port then (some (tcpRst ||| tcpAck, 0#32), 0#1)
  else if hasFlag m.flags tcpSyn then (some (tcpSyn ||| tcpAck, issSyn), 0#1)
  else if hasFlag m.flags tcpFin then (some (tcpFin ||| tcpAck, issFin), 0#1)
  else if hasFlag m.flags tcpAck ∧ m.ack = issFin then (none, 1#1)
  else (none, 0#1)

/-- `reply_tcp` (R193). `request.seq + 1` is taken modulo 2^32. -/
def replyTcp (p : Config.Params) (cfg : Registers) (eth : EthernetFrame) (ip : Ipv4Header) (seg : Bytes) :
    Except EngineError (Option Bytes × BitVec 1) :=
  match parseTcp seg with
  | .error e => .error e
  | .ok m =>
    match tcpReaction cfg m with
    | (some (fl, sq), est) => .ok (some (ipReplyFrame p cfg eth ip (tcpReplySegment p cfg m fl sq (m.seq + 1#32) ip)), est)
    | (none, est) => .ok (none, est)

/-- `reply_ipv4` (R189, R190): the address test comes before the transport parse; the transport message is everything from
byte 20 of the Ethernet payload. -/
def replyIpv4 (p : Config.Params) (cfg : Registers) (eth : EthernetFrame) : Except EngineError (Option Bytes × BitVec 1) :=
  match parseIpv4 eth.payload with
  | .error e => .error e
  | .ok ip =>
    if ip.dst ≠ cfg.ip then .ok (none, 0#1)
    else if ip.protocol = protoIcmp then replyIcmp p cfg eth ip (eth.payload.drop 20)
    else if ip.protocol = protoUdp then replyUdp p cfg eth ip (eth.payload.drop 20)
    else if ip.protocol = protoTcp then replyTcp p cfg eth ip (eth.payload.drop 20)
    else .ok (none, 0#1)

/-- `REPLY(frame)` (R185, R186), with the order of tests of R199. -/
def replyFrame (p : Config.Params) (cfg : Registers) (frame : Bytes) : Except EngineError (Option Bytes × BitVec 1) :=
  if cfg.v = 0#1 then .error .notConfigured
  else
    match parseEthernet frame with
    | .error e => .error e
    | .ok eth =>
      if eth.ethertype = ethertypeArp then replyArp cfg eth
      else if eth.ethertype = ethertypeIpv4 then replyIpv4 p cfg eth
      else .ok (none, 0#1)

/-- `REPLY` as an operation (R185): it reads the four registers and the parameters, and writes nothing. -/
def execReply (frame : Bytes) (s : State) : Host.Outcome State Fault Refusal :=
  transact (fits s.params frame.length) ((replyFrame s.params s.cfg frame).map fun r => .reply r.1 r.2) s

end Sys2Proof.Machine
end

