-- ==== Sys2Proof/Machine/Dispatch.lean ====
section
/-! DEFINITION. One arm per operation of 30_encoding.md R61. -/

namespace Sys2Proof.Machine

def exec (i : Instr) (s : State) : Host.Outcome State Fault Refusal :=
  match i with
  | .csum b => Sys2Proof.Machine.execCsum b s
  | .ethParse b => Sys2Proof.Machine.execEthParse b s
  | .ethEnc f => Sys2Proof.Machine.execEthEnc f s
  | .arpParse b => Sys2Proof.Machine.execArpParse b s
  | .arpEnc m => Sys2Proof.Machine.execArpEnc m s
  | .arpReply q localMac localIpv4 => Sys2Proof.Machine.execArpReply q localMac localIpv4 s
  | .ip4Parse b => Sys2Proof.Machine.execIp4Parse b s
  | .ip4Enc h => Sys2Proof.Machine.execIp4Enc h s
  | .icmpParse b => Sys2Proof.Machine.execIcmpParse b s
  | .icmpEnc m => Sys2Proof.Machine.execIcmpEnc m s
  | .udpParse b => Sys2Proof.Machine.execUdpParse b s
  | .udpEnc m srcIp dstIp => Sys2Proof.Machine.execUdpEnc m srcIp dstIp s
  | .tcpParse b => Sys2Proof.Machine.execTcpParse b s
  | .tcpEnc m srcIp dstIp => Sys2Proof.Machine.execTcpEnc m srcIp dstIp s
  | .reply frame => Sys2Proof.Machine.execReply frame s
  | .cfgSet mac ip port => Sys2Proof.Machine.execCfgSet mac ip port s

end Sys2Proof.Machine
end

