-- ==== Sys2Proof/Machine/Step.lean ====
section
/-! DEFINITION. One step: the host's oldest event is taken, whole (10_state.md R20, 20_memory.md R53). A request is decoded and
executed; a reset is carried out (70_reset_and_hazards.md R270: "only between transactions"); with no event nothing happens. -/

namespace Sys2Proof.Machine

/-- One transaction, one reset event, or nothing (R20, R247, R270, R276). -/
def step (s : State) : Host.Outcome State Fault Refusal :=
  match s.inbox with
  | [] => s.idle
  | .reset :: rest => .next (s.takeEvent rest).resetEngine
  | .request r :: rest =>
    match decode r with
    | .error e => answerUndecoded e (s.takeEvent rest)
    | .ok i => exec i (s.takeEvent rest)

/-- The state in which the host presents next the request of a table row, its operands all zero (logs 3 and 5). -/
def State.withFetchWord (s : State) (_nbits w : Nat) : State :=
  { s with inbox := .request (tableRequest w) :: s.inbox }

end Sys2Proof.Machine
end

