-- ==== Sys2Proof/Safety.lean ====
section
/-! DEFINITION. What counts as a safe run, in the terms the statements use. -/

namespace Sys2Proof.Machine

/-- The byte sequences a response carries across the operation interface: encoded bytes, a record's payload or data, a
reply frame (20_memory.md R40, R41). -/
def Response.sequences : Response → List Bytes
  | .ok (.bytes b) => [b]
  | .ok (.ethernetFrame f) => [f.payload]
  | .ok (.icmpMessage m) => [m.data]
  | .ok (.udpMessage m) => [m.data]
  | .ok (.tcpMessage m) => [m.data]
  | .ok (.reply (some frame) _) => [frame]
  | _ => []

/-- The invariant of a safe run: the parameters are in their range (00_scope.md R10), and "every byte sequence that crosses the
operation interface has length at most `MAXLEN`" (R41) holds of everything returned so far. -/
structure State.Inv (s : State) : Prop where
  params_valid : s.params.Valid
  returned_within : ∀ r ∈ s.responses, ∀ b ∈ r.sequences, b.length ≤ s.params.maxLen

/-- Two states the host cannot tell apart by any later request: the same registers and the same parameters
(10_state.md R27, R29). What is pending, and what was returned before, may differ. -/
def State.SameEngine (s t : State) : Prop := s.cfg = t.cfg ∧ s.params = t.params

/-- The IPv4 header of every reply (47_reply.md R197): from the local address to `dst`, with the parameters of R10. The
checksum of the record is not used by the encoder (43_ipv4.md R136). -/
def replyHeader (p : Config.Params) (cfg : Registers) (proto : Byte) (dst : Ip4) (bodyLen : Nat) : Ipv4Header :=
  { version := 4#4
    ihl := 5#4
    tos := p.replyTos
    totalLength := BitVec.ofNat 16 (20 + bodyLen)
    id := p.replyIpId
    flags := p.replyIpFlags
    fragOffset := 0#13
    ttl := p.replyTtl
    protocol := proto
    checksum := 0#16
    src := cfg.ip
    dst := dst }

/-- One addition of a 16-bit accumulator "adding 1 whenever an addition carries out of bit 15" (40_checksum.md R105). -/
def endAroundAdd (acc : BitVec 16) (w : Nat) : BitVec 16 :=
  BitVec.ofNat 16 (if acc.toNat + w > 0xFFFF then acc.toNat + w + 1 else acc.toNat + w)

/-- "summing 16-bit words with end-around carry" (R105), one word at a time in a 16-bit accumulator. -/
def endAroundSum (acc : BitVec 16) : Bytes → BitVec 16
  | [] => acc
  | [x] => endAroundAdd acc (x.toNat * 256)
  | x :: y :: rest => endAroundSum (endAroundAdd acc (x.toNat * 256 + y.toNat)) rest

/-- The byte offsets of a frame carrying an IPv4 packet of transport protocol `proto` that no rule of the reply engine looks
at: the destination MAC (47_reply.md R186); every byte of the IPv4 header but the protocol and the addresses, its
checksum included (R189, 43_ipv4.md R137); and of the transport header the received checksum (40_checksum.md R108), the
ICMP code (R191), the UDP length (R192), the TCP window and urgent pointer (R193 to R195). -/
abbrev ReplyIgnores (proto k : Nat) : Prop :=
  k < 6 ∨ (14 ≤ k ∧ k < 23) ∨ k = 24 ∨ k = 25
    ∨ (proto = 1 ∧ (k = 35 ∨ k = 36 ∨ k = 37))
    ∨ (proto = 17 ∧ (38 ≤ k ∧ k < 42))
    ∨ (proto = 6 ∧ (48 ≤ k ∧ k < 54))

end Sys2Proof.Machine
end

