-- ==== Sys2Proof/WellFormed.lean ====
section
/-! DEFINITION. The engine's domain (20_memory.md R41): every byte sequence that crosses the operation interface, operand
or encoded result, has length at most `MAXLEN`. Nothing else makes a request ill formed: the widths of the other
operands are their types, and every value of them is accepted (R80, R230). -/

namespace Sys2Proof

/-- R41 for one operation: no byte-sequence operand and no encoded result longer than `MAXLEN`. A record's own
`payload` or `data` is shorter than its encoding, so the bound on the encoding covers it (R111, R151, R161, R171).
Encodings of fixed size (28, 20) are below every `MAXLEN` of R10, and `REPLY` needs no check of its output (R42). -/
def Instr.wellFormed (p : Config.Params) : Instr → Bool
  | .csum b => decide (b.length ≤ p.maxLen)
  | .ethParse b => decide (b.length ≤ p.maxLen)
  | .ethEnc f => decide (14 + f.payload.length ≤ p.maxLen)
  | .arpParse b => decide (b.length ≤ p.maxLen)
  | .arpEnc _ => true
  | .arpReply _ localMac localIpv4 =>
      decide (localMac.length ≤ p.maxLen) && decide (localIpv4.length ≤ p.maxLen)
  | .ip4Parse b => decide (b.length ≤ p.maxLen)
  | .ip4Enc _ => true
  | .icmpParse b => decide (b.length ≤ p.maxLen)
  | .icmpEnc m => decide (8 + m.data.length ≤ p.maxLen)
  | .udpParse b => decide (b.length ≤ p.maxLen)
  | .udpEnc m _ _ => decide (8 + m.data.length ≤ p.maxLen)
  | .tcpParse b => decide (b.length ≤ p.maxLen)
  | .tcpEnc m _ _ => decide (20 + m.data.length ≤ p.maxLen)
  | .reply frame => decide (frame.length ≤ p.maxLen)
  | .cfgSet _ _ _ => true

end Sys2Proof
end

