-- ==== Sys2Proof/Certificates/Slice0/Obligations.lean ====
section
/-! DEFINITION. The statements for the provers. Each is a rule of spec/, or a consequence of rules, about the machine. A next
state written `{ s with responses := s.responses ++ [r] }` says the whole frame: one response is returned and every register,
every parameter, everything pending and everything returned before is as it was. -/

open Sys2Proof Sys2Proof.Machine

/-! ### The operation interface -/

/-- 30_encoding.md R61: the sixteen rows of the operation table, each selector written out bit by bit. -/
def Obligations.SelectorTableDecodes : Prop :=
  (∀ b, decode ⟨0b00000000#8, [.bytes b]⟩ = .ok (.csum b))
  ∧ (∀ b, decode ⟨0b00000001#8, [.bytes b]⟩ = .ok (.ethParse b))
  ∧ (∀ f, decode ⟨0b00000010#8, [.ethernetFrame f]⟩ = .ok (.ethEnc f))
  ∧ (∀ b, decode ⟨0b00000011#8, [.bytes b]⟩ = .ok (.arpParse b))
  ∧ (∀ m, decode ⟨0b00000100#8, [.arpMessage m]⟩ = .ok (.arpEnc m))
  ∧ (∀ q lm li, decode ⟨0b00000101#8, [.arpMessage q, .bytes lm, .bytes li]⟩ = .ok (.arpReply q lm li))
  ∧ (∀ b, decode ⟨0b00000110#8, [.bytes b]⟩ = .ok (.ip4Parse b))
  ∧ (∀ h, decode ⟨0b00000111#8, [.ipv4Header h]⟩ = .ok (.ip4Enc h))
  ∧ (∀ b, decode ⟨0b00001000#8, [.bytes b]⟩ = .ok (.icmpParse b))
  ∧ (∀ m, decode ⟨0b00001001#8, [.icmpMessage m]⟩ = .ok (.icmpEnc m))
  ∧ (∀ b, decode ⟨0b00001010#8, [.bytes b]⟩ = .ok (.udpParse b))
  ∧ (∀ m a d, decode ⟨0b00001011#8, [.udpMessage m, .ip4 a, .ip4 d]⟩ = .ok (.udpEnc m a d))
  ∧ (∀ b, decode ⟨0b00001100#8, [.bytes b]⟩ = .ok (.tcpParse b))
  ∧ (∀ m a d, decode ⟨0b00001101#8, [.tcpMessage m, .ip4 a, .ip4 d]⟩ = .ok (.tcpEnc m a d))
  ∧ (∀ frame, decode ⟨0b00001110#8, [.bytes frame]⟩ = .ok (.reply frame))
  ∧ (∀ mac ip port, decode ⟨0b00001111#8, [.mac mac, .ip4 ip, .u16 port]⟩ = .ok (.cfgSet mac ip port))

/-- 30_encoding.md R60, R61: decoding and encoding are inverse to each other, so a request names one operation and no two
requests name the same one, with every operand at every value. The operand list is the model's choice (log 3). -/
def Obligations.DecodeInvertsEncode : Prop :=
  ∀ (r : Request) (i : Instr), decode r = .ok i ↔ r = encode i

/-- 30_encoding.md R62: a reserved selector executes nothing. Pending requests and returned responses as lists: log 1. -/
def Obligations.ReservedSelectorIsIllegalOp : Prop :=
  ∀ (s : State) (op : Byte) (operands : List Operand) (rest : List HostEvent),
    0x10 ≤ op.toNat → s.inbox = .request ⟨op, operands⟩ :: rest →
    step s = .next { s with inbox := rest, responses := s.responses ++ [.error .illegalOp] }
    ∧ (Response.error .illegalOp).statusCode = 3 ∧ (Response.error .illegalOp).result = none
    ∧ ∀ i, decode ⟨op, operands⟩ ≠ .ok i

/-- 10_state.md R20: a step takes the oldest request, whole, and is the execution of the operation it decodes to. The list of
pending requests is the model's (log 1). -/
def Obligations.StepRunsDecodedRequest : Prop :=
  ∀ (s : State) (r : Request) (rest : List HostEvent) (i : Instr),
    s.inbox = .request r :: rest → decode r = .ok i → step s = exec i { s with inbox := rest }

/-- The model's choice (log 2), resting on 60_exceptions.md R247: with no host event, nothing happens. -/
def Obligations.StepWithNoEventChangesNothing : Prop :=
  ∀ s : State, s.inbox = [] → step s = .next s

/-- 20_memory.md R41, 60_exceptions.md R246: a step has no meaning exactly for a request outside the domain, or whose operands are
not those of its selector (log 4), and no step ever faults. -/
def Obligations.StepStopsOnlyOutsideTheDomain : Prop :=
  ∀ s : State,
    (∀ f, step s ≠ .fault f)
    ∧ ∀ x, step s = .refused x ↔ ∃ r rest, s.inbox = .request r :: rest
        ∧ ((x = .malformedOperands ∧ ∃ o, decode r = .error (.malformedOperands o))
          ∨ (x = .beyondMaxLen ∧ ∃ i, decode r = .ok i ∧ i.wellFormed s.params = false))

/-- 60_exceptions.md R246, 10_state.md R20: every operation inside the domain returns exactly one response, and only `CFG.SET`
changes anything else. -/
def Obligations.EveryOperationInDomainAnswers : Prop :=
  ∀ (i : Instr) (s : State), i.wellFormed s.params = true →
    ∃ r c, exec i s = .next { s with cfg := c, responses := s.responses ++ [r] }
      ∧ (c = s.cfg ∨ ∃ mac ip port, i = .cfgSet mac ip port)

/-- 20_memory.md R41: outside the domain the request is refused, not truncated and not answered with an error. -/
def Obligations.BeyondMaxLenIsRefused : Prop :=
  ∀ (i : Instr) (s : State), exec i s = .refused .beyondMaxLen ↔ i.wellFormed s.params = false

/-- 60_exceptions.md R240, R241: the codes of the statuses and reasons; an error carries no result and no `est`. -/
def Obligations.StatusAndReasonCodes : Prop :=
  (∀ r, (Response.ok r).statusCode = 0 ∧ (Response.ok r).reasonCode = none)
  ∧ (∀ f, (Response.error (.formatError f)).statusCode = 1)
  ∧ [FormatReason.ethTooShort, .arpTooShort, .ip4TooShort, .icmpTooShort, .udpTooShort, .tcpTooShort,
      .tcpHeaderExceedsBuffer].map (fun f => (Response.error (.formatError f)).reasonCode)
      = [some 1, some 2, some 3, some 4, some 5, some 6, some 7]
  ∧ (Response.error (.validationError .invalidAddressLength)).statusCode = 2
  ∧ (Response.error (.validationError .invalidAddressLength)).reasonCode = some 1
  ∧ (Response.error .illegalOp).statusCode = 3 ∧ (Response.error .illegalOp).reasonCode = none
  ∧ (Response.error .notConfigured).statusCode = 4 ∧ (Response.error .notConfigured).reasonCode = none
  ∧ ∀ e, (Response.error e).result = none ∧ (Response.error e).est = none

/-- 60_exceptions.md R242: which operations can fail, and with what. -/
def Obligations.OnlyTheTabledErrors : Prop :=
  ∀ (i : Instr) (s t : State) (e : EngineError),
    exec i s = .next t → t.responses = s.responses ++ [.error e] →
    match i with
    | .ethParse _ => e = .formatError .ethTooShort
    | .arpParse _ => e = .formatError .arpTooShort
    | .arpReply _ _ _ => e = .validationError .invalidAddressLength
    | .ip4Parse _ => e = .formatError .ip4TooShort
    | .icmpParse _ => e = .formatError .icmpTooShort
    | .udpParse _ => e = .formatError .udpTooShort
    | .tcpParse _ => e = .formatError .tcpTooShort ∨ e = .formatError .tcpHeaderExceedsBuffer
    | .reply _ => e = .notConfigured ∨ ∃ f, e = .formatError f
    | .csum _ | .ethEnc _ | .arpEnc _ | .ip4Enc _ | .icmpEnc _ | .udpEnc _ _ _ | .tcpEnc _ _ _ | .cfgSet _ _ _ => False

/-- 60_exceptions.md R243: an error "ends its transaction and nothing more". -/
def Obligations.ErrorsChangeNoState : Prop :=
  ∀ (i : Instr) (s t : State) (e : EngineError),
    exec i s = .next t → t.responses = s.responses ++ [.error e] →
    t = { s with responses := s.responses ++ [.error e] }
    ∧ (Response.error e).result = none ∧ (Response.error e).est = none

/-! ### Whole-machine rules -/

/-- The frame of every operation (10_state.md R24, R28; 20_memory.md R53): exactly one response is returned after the earlier ones;
the registers are written by `CFG.SET` only, all four together; `CFG_V` is never cleared by an operation. -/
def Obligations.OnlyCfgSetWritesRegisters : Prop :=
  ∀ (i : Instr) (s t : State), exec i s = .next t →
    (∃ r, t.responses = s.responses ++ [r])
    ∧ t.params = s.params ∧ t.inbox = s.inbox ∧ t.freeNext = s.freeNext
    ∧ (t.cfg = s.cfg ∨ ∃ mac ip port, i = .cfgSet mac ip port ∧ t.cfg = ⟨mac, ip, port, 1#1⟩)
    ∧ (s.cfg.v = 1#1 → t.cfg.v = 1#1)

/-- 10_state.md R24: `CFG_V` is "never cleared except by reset". -/
def Obligations.OnlyResetClearsCfgV : Prop :=
  ∀ s t : State, step s = .next t → s.cfg.v = 1#1 → (∀ rest, s.inbox ≠ .reset :: rest) → t.cfg.v = 1#1

/-- 20_memory.md R41, R42 and 00_scope.md R10: one step of any kind keeps the invariant that everything returned is within `MAXLEN`. -/
def Obligations.StepKeepsReturnedWithinMaxLen : Prop :=
  ∀ s t : State, s.Inv → step s = .next t → t.Inv

/-- The invariant holds right after reset. -/
def Obligations.ResetIsWithinMaxLen : Prop := State.reset.Inv

/-- 10_state.md R30 and the defaults of 00_scope.md R10. What the other three registers hold is left free (log 8). -/
def Obligations.ResetLeavesUnconfigured : Prop :=
  State.reset.cfg.v = 0#1 ∧ State.reset.inbox = [] ∧ State.reset.responses = []
  ∧ State.reset.params.maxLen = 1514 ∧ State.reset.params.replyTtl = 64#8 ∧ State.reset.params.replyIpId = 0#16
  ∧ State.reset.params.replyTos = 0#8 ∧ State.reset.params.replyIpFlags = 0#3
  ∧ State.reset.params.replyTcpWindow = 65535#16

/-- 70_reset_and_hazards.md R270, R271, R272, R277: the reset event clears `CFG_V`, returns nothing, keeps the parameters, and a
`REPLY` after it is answered `NotConfigured`. That it leaves pending requests and returned responses is the model's choice (log 1). -/
def Obligations.ResetEventUnconfigures : Prop :=
  ∀ (s : State) (rest : List HostEvent), s.inbox = .reset :: rest →
    ∃ t, step s = .next t ∧ t.cfg.v = 0#1 ∧ t.params = s.params ∧ t.responses = s.responses ∧ t.inbox = rest
      ∧ ∀ frame : Bytes, frame.length ≤ s.params.maxLen →
          exec (.reply frame) t = .next { t with responses := t.responses ++ [.error .notConfigured] }

/-- 10_state.md R24, R27 and 70_reset_and_hazards.md R272: the response of an operation other than `REPLY` and `CFG.SET` is a function
of its operands alone: no register, no parameter but the bound of R41, and nothing done before has any part in it. -/
def Obligations.CodecResponsesNeedOnlyOperands : Prop :=
  ∀ i : Instr, (∀ frame, i ≠ .reply frame) → (∀ mac ip port, i ≠ .cfgSet mac ip port) →
    ∃ r, ∀ s : State, i.wellFormed s.params = true →
      exec i s = .next { s with responses := s.responses ++ [r] }

/-- 10_state.md R27, 47_reply.md R196, R201: the response of `REPLY` is a function of the configuration, the parameters and the
frame; before any configuration it is `NotConfigured` for every frame (R185). -/
def Obligations.ReplyIsStateless : Prop :=
  (∀ (p : Config.Params) (c : Registers) (frame : Bytes), frame.length ≤ p.maxLen →
    ∃ r, ∀ s : State, s.params = p → s.cfg = c →
      exec (.reply frame) s = .next { s with responses := s.responses ++ [r] })
  ∧ ∀ (s : State) (frame : Bytes), frame.length ≤ s.params.maxLen → s.cfg.v = 0#1 →
      exec (.reply frame) s = .next { s with responses := s.responses ++ [.error .notConfigured] }

/-- 10_state.md R26, R27, R29: two engines with the same registers and parameters, whatever was returned before, whatever is
pending, answer an operation with the same response, and have the same registers and parameters after it. -/
def Obligations.HistoryHasNoInfluence : Prop :=
  ∀ (s t s' : State) (i : Instr), s.SameEngine t → exec i s = .next s' →
    ∃ t' r, exec i t = .next t' ∧ s'.SameEngine t'
      ∧ s'.responses = s.responses ++ [r] ∧ t'.responses = t.responses ++ [r]

/-- 20_memory.md R53 (c), 60_exceptions.md R244: an operation other than `CFG.SET`, whether it succeeded or failed, is not seen by
any operation after it. -/
def Obligations.OnlyCfgSetIsSeenLater : Prop :=
  ∀ (s s' u : State) (i j : Instr), exec i s = .next s' → (∀ mac ip port, i ≠ .cfgSet mac ip port) →
    exec j s = .next u →
    ∃ r, u.responses = s.responses ++ [r] ∧ exec j s' = .next { u with responses := s'.responses ++ [r] }

/-- 48_config.md R230, 20_memory.md R50: the four writes together, `OK` and nothing beyond the status. -/
def Obligations.CfgSetWritesAllFour : Prop :=
  ∀ (s : State) (mac : Mac) (ip : Ip4) (port : BitVec 16),
    exec (.cfgSet mac ip port) s =
      .next { s with
        cfg := { mac := mac, ip := ip, port := port, v := 1#1 }
        responses := s.responses ++ [.ok .nothing] }

/-- 20_memory.md R53 (a), (b): a `CFG.SET` is seen by the `REPLY` after it and not by the `REPLY` before it, in the order they
stand in the list of pending requests (log 1). -/
def Obligations.CfgSetSeenByLaterReplyOnly : Prop :=
  ∀ (s : State) (mac : Mac) (ip : Ip4) (port : BitVec 16) (frame : Bytes) (rest : List HostEvent),
    frame.length ≤ s.params.maxLen →
    (s.inbox = .request (encode (.cfgSet mac ip port)) :: .request (encode (.reply frame)) :: rest →
      ∃ r t u, step s = .next t ∧ step t = .next u
        ∧ u = { s with cfg := ⟨mac, ip, port, 1#1⟩, inbox := rest, responses := s.responses ++ [.ok .nothing, r] }
        ∧ exec (.reply frame) { s with cfg := ⟨mac, ip, port, 1#1⟩ } =
            .next { s with cfg := ⟨mac, ip, port, 1#1⟩, responses := s.responses ++ [r] })
    ∧ (s.inbox = .request (encode (.reply frame)) :: .request (encode (.cfgSet mac ip port)) :: rest →
      ∃ r t u, step s = .next t ∧ step t = .next u
        ∧ u = { s with cfg := ⟨mac, ip, port, 1#1⟩, inbox := rest, responses := s.responses ++ [r, .ok .nothing] }
        ∧ exec (.reply frame) s = .next { s with responses := s.responses ++ [r] })

/-- 10_state.md R24: the bits of `CFG_MAC` and `CFG_IP`, byte 0 the most significant. -/
def Obligations.RegisterBitsInWireOrder : Prop :=
  (∀ m : Mac, m.toBits.extractLsb' 40 8 = m.b0 ∧ m.toBits.extractLsb' 32 8 = m.b1 ∧ m.toBits.extractLsb' 24 8 = m.b2
    ∧ m.toBits.extractLsb' 16 8 = m.b3 ∧ m.toBits.extractLsb' 8 8 = m.b4 ∧ m.toBits.extractLsb' 0 8 = m.b5)
  ∧ ∀ a : Ip4, a.toBits.extractLsb' 24 8 = a.b0 ∧ a.toBits.extractLsb' 16 8 = a.b1
    ∧ a.toBits.extractLsb' 8 8 = a.b2 ∧ a.toBits.extractLsb' 0 8 = a.b3

/-! ### The checksum engine -/

/-- 40_checksum.md R101: the word sum, by index. -/
def Obligations.WordSumPairsFromIndexZero : Prop :=
  (∀ b : Bytes, wordSum b =
    (∑ k ∈ Finset.range (b.length / 2), ((b.getD (2 * k) 0).toNat * 256 + (b.getD (2 * k + 1) 0).toNat))
      + (if b.length % 2 = 1 then (b.getD (b.length - 1) 0).toNat * 256 else 0))
  ∧ ∀ b : Bytes, b.length % 2 = 1 → wordSum b = wordSum (b ++ [0#8])

/-- 40_checksum.md R102: the loop, its range, and its closed form. -/
def Obligations.FoldClosedForm : Prop :=
  (∀ n, fold n = if n > 0xFFFF then fold ((n &&& 0xFFFF) + (n >>> 16)) else n)
  ∧ (∀ n, fold n ≤ 0xFFFF) ∧ fold 0 = 0 ∧ ∀ n, 0 < n → fold n = (n - 1) % 65535 + 1

/-- 40_checksum.md R100: `CSUM` answers `OK` for every sequence, with the complement of the folded word sum, and its corner
cases. -/
def Obligations.CsumComplementsFoldedSum : Prop :=
  (∀ b, decode ⟨0x00#8, [.bytes b]⟩ = .ok (.csum b))
  ∧ ∀ (s : State) (b : Bytes), b.length ≤ s.params.maxLen →
    ∃ c : BitVec 16, exec (.csum b) s = .next { s with responses := s.responses ++ [.ok (.u16 c)] }
      ∧ c.toNat = 0xFFFF - fold (wordSum b)
      ∧ (b = [] → c = 0xFFFF#16)
      ∧ (∀ x, b = [x] → c.toNat = 0xFFFF - x.toNat * 256)
      ∧ ((∀ x ∈ b, x = 0#8) → c = 0xFFFF#16)
      ∧ (c = 0#16 ↔ fold (wordSum b) = 0xFFFF)
      ∧ (b = [0x00, 0x01, 0xf2, 0x03, 0xf4, 0xf5, 0xf6, 0xf7] → c = 0x220d#16)

/-- 40_checksum.md R104: the verification law. -/
def Obligations.ChecksumVerificationLaw : Prop :=
  ∀ (b : Bytes) (p : Nat), p % 2 = 0 → p + 2 ≤ b.length → b.getD p 0 = 0#8 → b.getD (p + 1) 0 = 0#8 →
    checksum (patch16 b p (checksum b)) = 0#16
    ∧ (checksum b = 0#16 → checksum (patch16 b p 0xFFFF#16) = 0#16)

/-- 40_checksum.md R105: the end-around-carry description names the same function. -/
def Obligations.EndAroundCarryIsTheFold : Prop :=
  ∀ b : Bytes, (endAroundSum 0#16 b).toNat = fold (wordSum b)

/-- 40_checksum.md R106 (a) to (e). -/
def Obligations.ChecksumFacts : Prop :=
  (∀ b : Bytes, checksum b = 0xFFFF#16 ↔ ∀ x ∈ b, x = 0#8)
  ∧ (∀ b : Bytes, checksum b = 0#16 ↔ 0 < wordSum b ∧ wordSum b % 65535 = 0)
  ∧ (∀ a b : Bytes, a.length % 2 = 0 → wordSum (a ++ b) = wordSum a + wordSum b)
  ∧ (∀ (b : Bytes) (n : Nat), b.length % 2 = 0 → checksum (b ++ List.replicate n 0#8) = checksum b)
  ∧ (∀ b : Bytes, b.length % 2 = 1 → checksum (b ++ [0#8]) = checksum b)
  ∧ ∀ (x y u v : Byte) (a m z : Bytes), a.length % 2 = 0 → m.length % 2 = 0 →
      checksum (a ++ [x, y] ++ m ++ [u, v] ++ z) = checksum (a ++ [u, v] ++ m ++ [x, y] ++ z)

/-! ### The codecs: what each parser returns -/

/-- 41_ethernet.md R110, R113. -/
def Obligations.EthParseFields : Prop :=
  (∀ b, decode ⟨0x01#8, [.bytes b]⟩ = .ok (.ethParse b))
  ∧ ∀ (s : State) (b : Bytes), b.length ≤ s.params.maxLen →
    (14 ≤ b.length → ∃ f : EthernetFrame,
      exec (.ethParse b) s = .next { s with responses := s.responses ++ [.ok (.ethernetFrame f)] }
      ∧ f.dst.toBytes = b.take 6 ∧ f.src.toBytes = (b.drop 6).take 6
      ∧ f.ethertype.toNat = (b.getD 12 0).toNat * 256 + (b.getD 13 0).toNat
      ∧ f.payload = b.drop 14 ∧ f.payload.length = b.length - 14)
    ∧ (b.length < 14 →
      exec (.ethParse b) s = .next { s with responses := s.responses ++ [.error (.formatError .ethTooShort)] })

/-- 42_arp.md R120, R124. -/
def Obligations.ArpParseFields : Prop :=
  (∀ b, decode ⟨0x03#8, [.bytes b]⟩ = .ok (.arpParse b))
  ∧ ∀ (s : State) (b : Bytes), b.length ≤ s.params.maxLen →
    (28 ≤ b.length → ∃ m : ArpMessage,
      exec (.arpParse b) s = .next { s with responses := s.responses ++ [.ok (.arpMessage m)] }
      ∧ m.hwtype.toNat = (b.getD 0 0).toNat * 256 + (b.getD 1 0).toNat
      ∧ m.prototype.toNat = (b.getD 2 0).toNat * 256 + (b.getD 3 0).toNat
      ∧ m.hwlen = b.getD 4 0 ∧ m.protolen = b.getD 5 0
      ∧ m.op.toNat = (b.getD 6 0).toNat * 256 + (b.getD 7 0).toNat
      ∧ m.senderMac.toBytes = (b.drop 8).take 6 ∧ m.senderIp.toBytes = (b.drop 14).take 4
      ∧ m.targetMac.toBytes = (b.drop 18).take 6 ∧ m.targetIp.toBytes = (b.drop 24).take 4)
    ∧ (b.length < 28 →
      exec (.arpParse b) s = .next { s with responses := s.responses ++ [.error (.formatError .arpTooShort)] })

/-- 43_ipv4.md R135, R139: version and header length are not tested, options are not read. -/
def Obligations.Ip4ParseFields : Prop :=
  (∀ b, decode ⟨0x06#8, [.bytes b]⟩ = .ok (.ip4Parse b))
  ∧ ∀ (s : State) (b : Bytes), b.length ≤ s.params.maxLen →
    (20 ≤ b.length → ∃ h : Ipv4Header,
      exec (.ip4Parse b) s = .next { s with responses := s.responses ++ [.ok (.ipv4Header h)] }
      ∧ h.version.toNat = (b.getD 0 0).toNat / 16 ∧ h.ihl.toNat = (b.getD 0 0).toNat % 16
      ∧ h.tos = b.getD 1 0
      ∧ h.totalLength.toNat = (b.getD 2 0).toNat * 256 + (b.getD 3 0).toNat
      ∧ h.id.toNat = (b.getD 4 0).toNat * 256 + (b.getD 5 0).toNat
      ∧ h.flags.toNat = (b.getD 6 0).toNat / 32
      ∧ h.fragOffset.toNat = (b.getD 6 0).toNat % 32 * 256 + (b.getD 7 0).toNat
      ∧ h.ttl = b.getD 8 0 ∧ h.protocol = b.getD 9 0
      ∧ h.checksum.toNat = (b.getD 10 0).toNat * 256 + (b.getD 11 0).toNat
      ∧ h.src.toBytes = (b.drop 12).take 4 ∧ h.dst.toBytes = (b.drop 16).take 4)
    ∧ (b.length < 20 →
      exec (.ip4Parse b) s = .next { s with responses := s.responses ++ [.error (.formatError .ip4TooShort)] })

/-- 44_icmp.md R150, R154. -/
def Obligations.IcmpParseFields : Prop :=
  (∀ b, decode ⟨0x08#8, [.bytes b]⟩ = .ok (.icmpParse b))
  ∧ ∀ (s : State) (b : Bytes), b.length ≤ s.params.maxLen →
    (8 ≤ b.length → ∃ m : IcmpMessage,
      exec (.icmpParse b) s = .next { s with responses := s.responses ++ [.ok (.icmpMessage m)] }
      ∧ m.type = b.getD 0 0 ∧ m.code = b.getD 1 0
      ∧ m.checksum.toNat = (b.getD 2 0).toNat * 256 + (b.getD 3 0).toNat
      ∧ m.id.toNat = (b.getD 4 0).toNat * 256 + (b.getD 5 0).toNat
      ∧ m.seq.toNat = (b.getD 6 0).toNat * 256 + (b.getD 7 0).toNat
      ∧ m.data = b.drop 8)
    ∧ (b.length < 8 →
      exec (.icmpParse b) s = .next { s with responses := s.responses ++ [.error (.formatError .icmpTooShort)] })

/-- 45_udp.md R160, R164: the length field is recorded, not compared with anything. -/
def Obligations.UdpParseFields : Prop :=
  (∀ b, decode ⟨0x0A#8, [.bytes b]⟩ = .ok (.udpParse b))
  ∧ ∀ (s : State) (b : Bytes), b.length ≤ s.params.maxLen →
    (8 ≤ b.length → ∃ m : UdpMessage,
      exec (.udpParse b) s = .next { s with responses := s.responses ++ [.ok (.udpMessage m)] }
      ∧ m.srcPort.toNat = (b.getD 0 0).toNat * 256 + (b.getD 1 0).toNat
      ∧ m.dstPort.toNat = (b.getD 2 0).toNat * 256 + (b.getD 3 0).toNat
      ∧ m.length.toNat = (b.getD 4 0).toNat * 256 + (b.getD 5 0).toNat
      ∧ m.checksum.toNat = (b.getD 6 0).toNat * 256 + (b.getD 7 0).toNat
      ∧ m.data = b.drop 8)
    ∧ (b.length < 8 →
      exec (.udpParse b) s = .next { s with responses := s.responses ++ [.error (.formatError .udpTooShort)] })

/-- 46_tcp.md R170, R173: the two failures in their order, and otherwise the fields, the data from `4 * data_offset` whatever
the offset. -/
def Obligations.TcpParseFields : Prop :=
  (∀ b, decode ⟨0x0C#8, [.bytes b]⟩ = .ok (.tcpParse b))
  ∧ ∀ (s : State) (b : Bytes), b.length ≤ s.params.maxLen →
    (b.length < 20 →
      exec (.tcpParse b) s = .next { s with responses := s.responses ++ [.error (.formatError .tcpTooShort)] })
    ∧ (20 ≤ b.length → b.length < 4 * ((b.getD 12 0).toNat / 16) →
      exec (.tcpParse b) s =
        .next { s with responses := s.responses ++ [.error (.formatError .tcpHeaderExceedsBuffer)] })
    ∧ (20 ≤ b.length → 4 * ((b.getD 12 0).toNat / 16) ≤ b.length → ∃ m : TcpMessage,
      exec (.tcpParse b) s = .next { s with responses := s.responses ++ [.ok (.tcpMessage m)] }
      ∧ m.srcPort.toNat = (b.getD 0 0).toNat * 256 + (b.getD 1 0).toNat
      ∧ m.dstPort.toNat = (b.getD 2 0).toNat * 256 + (b.getD 3 0).toNat
      ∧ m.seq.toNat = (b.getD 4 0).toNat * 2 ^ 24 + (b.getD 5 0).toNat * 2 ^ 16 + (b.getD 6 0).toNat * 2 ^ 8
          + (b.getD 7 0).toNat
      ∧ m.ack.toNat = (b.getD 8 0).toNat * 2 ^ 24 + (b.getD 9 0).toNat * 2 ^ 16 + (b.getD 10 0).toNat * 2 ^ 8
          + (b.getD 11 0).toNat
      ∧ m.dataOffset.toNat = (b.getD 12 0).toNat / 16
      ∧ m.flags.toNat = (b.getD 13 0).toNat % 64
      ∧ m.window.toNat = (b.getD 14 0).toNat * 256 + (b.getD 15 0).toNat
      ∧ m.checksum.toNat = (b.getD 16 0).toNat * 256 + (b.getD 17 0).toNat
      ∧ m.urgent.toNat = (b.getD 18 0).toNat * 256 + (b.getD 19 0).toNat
      ∧ m.data = b.drop (4 * ((b.getD 12 0).toNat / 16)))

/-! ### The codecs: what each encoder emits -/

/-- 41_ethernet.md R111: destination, source, EtherType, payload; no padding, no frame check sequence. -/
def Obligations.EthEncBytes : Prop :=
  (∀ f, decode ⟨0x02#8, [.ethernetFrame f]⟩ = .ok (.ethEnc f))
  ∧ ∀ (s : State) (f : EthernetFrame), 14 + f.payload.length ≤ s.params.maxLen →
    ∃ o : Bytes, exec (.ethEnc f) s = .next { s with responses := s.responses ++ [.ok (.bytes o)] }
      ∧ o.length = 14 + f.payload.length
      ∧ o.take 6 = f.dst.toBytes ∧ (o.drop 6).take 6 = f.src.toBytes
      ∧ (o.getD 12 0).toNat * 256 + (o.getD 13 0).toNat = f.ethertype.toNat
      ∧ o.drop 14 = f.payload

/-- 42_arp.md R121. -/
def Obligations.ArpEncBytes : Prop :=
  (∀ m, decode ⟨0x04#8, [.arpMessage m]⟩ = .ok (.arpEnc m))
  ∧ ∀ (s : State) (m : ArpMessage),
    ∃ o : Bytes, exec (.arpEnc m) s = .next { s with responses := s.responses ++ [.ok (.bytes o)] }
      ∧ o.length = 28
      ∧ (o.getD 0 0).toNat * 256 + (o.getD 1 0).toNat = m.hwtype.toNat
      ∧ (o.getD 2 0).toNat * 256 + (o.getD 3 0).toNat = m.prototype.toNat
      ∧ o.getD 4 0 = m.hwlen ∧ o.getD 5 0 = m.protolen
      ∧ (o.getD 6 0).toNat * 256 + (o.getD 7 0).toNat = m.op.toNat
      ∧ (o.drop 8).take 6 = m.senderMac.toBytes ∧ (o.drop 14).take 4 = m.senderIp.toBytes
      ∧ (o.drop 18).take 6 = m.targetMac.toBytes ∧ (o.drop 24).take 4 = m.targetIp.toBytes

/-- 42_arp.md R122: the 28 bytes of the reply from the local identity and the request's sender, or the one failure. -/
def Obligations.ArpReplyBytes : Prop :=
  (∀ q lm li, decode ⟨0x05#8, [.arpMessage q, .bytes lm, .bytes li]⟩ = .ok (.arpReply q lm li))
  ∧ ∀ (s : State) (q : ArpMessage) (lm li : Bytes), lm.length ≤ s.params.maxLen → li.length ≤ s.params.maxLen →
    (lm.length = 6 → li.length = 4 →
      exec (.arpReply q lm li) s = .next { s with responses := s.responses ++ [.ok (.bytes
        ([0x00, 0x01, 0x08, 0x00, 0x06, 0x04, 0x00, 0x02] ++ lm ++ li ++ q.senderMac.toBytes ++ q.senderIp.toBytes))] })
    ∧ (lm.length ≠ 6 ∨ li.length ≠ 4 →
      exec (.arpReply q lm li) s =
        .next { s with responses := s.responses ++ [.error (.validationError .invalidAddressLength)] })

/-- 43_ipv4.md R136: 20 bytes from the record, the checksum computed over them with its field zero. -/
def Obligations.Ip4EncBytes : Prop :=
  (∀ h, decode ⟨0x07#8, [.ipv4Header h]⟩ = .ok (.ip4Enc h))
  ∧ ∀ (s : State) (h : Ipv4Header),
    ∃ o : Bytes, exec (.ip4Enc h) s = .next { s with responses := s.responses ++ [.ok (.bytes o)] }
      ∧ o.length = 20
      ∧ (o.getD 0 0).toNat = h.version.toNat * 16 + h.ihl.toNat
      ∧ o.getD 1 0 = h.tos
      ∧ (o.getD 2 0).toNat * 256 + (o.getD 3 0).toNat = h.totalLength.toNat
      ∧ (o.getD 4 0).toNat * 256 + (o.getD 5 0).toNat = h.id.toNat
      ∧ (o.getD 6 0).toNat * 256 + (o.getD 7 0).toNat = h.flags.toNat * 8192 + h.fragOffset.toNat
      ∧ o.getD 8 0 = h.ttl ∧ o.getD 9 0 = h.protocol
      ∧ (o.getD 10 0).toNat * 256 + (o.getD 11 0).toNat = (checksum (o.take 10 ++ [0, 0] ++ o.drop 12)).toNat
      ∧ (o.drop 12).take 4 = h.src.toBytes ∧ (o.drop 16).take 4 = h.dst.toBytes

/-- 44_icmp.md R151, R152: no pseudo-header, no zero remap. -/
def Obligations.IcmpEncBytes : Prop :=
  (∀ m, decode ⟨0x09#8, [.icmpMessage m]⟩ = .ok (.icmpEnc m))
  ∧ ∀ (s : State) (m : IcmpMessage), 8 + m.data.length ≤ s.params.maxLen →
    ∃ o : Bytes, exec (.icmpEnc m) s = .next { s with responses := s.responses ++ [.ok (.bytes o)] }
      ∧ o.length = 8 + m.data.length
      ∧ o.getD 0 0 = m.type ∧ o.getD 1 0 = m.code
      ∧ (o.getD 2 0).toNat * 256 + (o.getD 3 0).toNat = (checksum (o.take 2 ++ [0, 0] ++ o.drop 4)).toNat
      ∧ (o.getD 4 0).toNat * 256 + (o.getD 5 0).toNat = m.id.toNat
      ∧ (o.getD 6 0).toNat * 256 + (o.getD 7 0).toNat = m.seq.toNat
      ∧ o.drop 8 = m.data

/-- 45_udp.md R161: the true length in both headers, the checksum over pseudo-header and segment, zero sent as all ones. -/
def Obligations.UdpEncBytes : Prop :=
  (∀ m a d, decode ⟨0x0B#8, [.udpMessage m, .ip4 a, .ip4 d]⟩ = .ok (.udpEnc m a d))
  ∧ ∀ (s : State) (m : UdpMessage) (a d : Ip4), s.params.Valid → 8 + m.data.length ≤ s.params.maxLen →
    ∃ o : Bytes, exec (.udpEnc m a d) s = .next { s with responses := s.responses ++ [.ok (.bytes o)] }
      ∧ o.length = 8 + m.data.length
      ∧ (o.getD 0 0).toNat * 256 + (o.getD 1 0).toNat = m.srcPort.toNat
      ∧ (o.getD 2 0).toNat * 256 + (o.getD 3 0).toNat = m.dstPort.toNat
      ∧ (o.getD 4 0).toNat * 256 + (o.getD 5 0).toNat = 8 + m.data.length
      ∧ o.drop 8 = m.data
      ∧ ∃ c : BitVec 16,
          c = checksum (a.toBytes ++ d.toBytes ++ [0, 17] ++ (o.drop 4).take 2 ++ (o.take 6 ++ [0, 0] ++ o.drop 8))
          ∧ c ≠ 0xFFFF#16
          ∧ (o.getD 6 0).toNat * 256 + (o.getD 7 0).toNat = (if c = 0#16 then 0xFFFF else c.toNat)

/-- 46_tcp.md R171: an unset offset becomes 5, another is written as held, the header is always 20 bytes, no zero remap. -/
def Obligations.TcpEncBytes : Prop :=
  (∀ m a d, decode ⟨0x0D#8, [.tcpMessage m, .ip4 a, .ip4 d]⟩ = .ok (.tcpEnc m a d))
  ∧ ∀ (s : State) (m : TcpMessage) (a d : Ip4), s.params.Valid → 20 + m.data.length ≤ s.params.maxLen →
    ∃ o len : Bytes, exec (.tcpEnc m a d) s = .next { s with responses := s.responses ++ [.ok (.bytes o)] }
      ∧ o.length = 20 + m.data.length
      ∧ (o.getD 0 0).toNat * 256 + (o.getD 1 0).toNat = m.srcPort.toNat
      ∧ (o.getD 2 0).toNat * 256 + (o.getD 3 0).toNat = m.dstPort.toNat
      ∧ (o.getD 4 0).toNat * 2 ^ 24 + (o.getD 5 0).toNat * 2 ^ 16 + (o.getD 6 0).toNat * 2 ^ 8 + (o.getD 7 0).toNat
          = m.seq.toNat
      ∧ (o.getD 8 0).toNat * 2 ^ 24 + (o.getD 9 0).toNat * 2 ^ 16 + (o.getD 10 0).toNat * 2 ^ 8 + (o.getD 11 0).toNat
          = m.ack.toNat
      ∧ (o.getD 12 0).toNat = (if m.dataOffset = 0#4 then 5 else m.dataOffset.toNat) * 16
      ∧ (o.getD 13 0).toNat = m.flags.toNat
      ∧ (o.getD 14 0).toNat * 256 + (o.getD 15 0).toNat = m.window.toNat
      ∧ len.length = 2 ∧ (len.getD 0 0).toNat * 256 + (len.getD 1 0).toNat = 20 + m.data.length
      ∧ (o.getD 16 0).toNat * 256 + (o.getD 17 0).toNat =
          (checksum (a.toBytes ++ d.toBytes ++ [0, 6] ++ len ++ (o.take 16 ++ [0, 0] ++ o.drop 18))).toNat
      ∧ (o.getD 18 0).toNat * 256 + (o.getD 19 0).toNat = m.urgent.toNat
      ∧ o.drop 20 = m.data

/-! ### The codecs: round trips and verification -/

/-- 41_ethernet.md R112, both directions. -/
def Obligations.EthernetRoundTrip : Prop :=
  (∀ (s : State) (f : EthernetFrame), 14 + f.payload.length ≤ s.params.maxLen →
    ∃ o, exec (.ethEnc f) s = .next { s with responses := s.responses ++ [.ok (.bytes o)] }
      ∧ exec (.ethParse o) s = .next { s with responses := s.responses ++ [.ok (.ethernetFrame f)] })
  ∧ ∀ (s : State) (b : Bytes), 14 ≤ b.length → b.length ≤ s.params.maxLen →
    ∃ f, exec (.ethParse b) s = .next { s with responses := s.responses ++ [.ok (.ethernetFrame f)] }
      ∧ exec (.ethEnc f) s = .next { s with responses := s.responses ++ [.ok (.bytes b)] }

/-- 42_arp.md R123, both directions. -/
def Obligations.ArpRoundTrip : Prop :=
  (∀ (s : State) (m : ArpMessage), s.params.Valid →
    ∃ o, exec (.arpEnc m) s = .next { s with responses := s.responses ++ [.ok (.bytes o)] }
      ∧ exec (.arpParse o) s = .next { s with responses := s.responses ++ [.ok (.arpMessage m)] })
  ∧ ∀ (s : State) (b : Bytes), 28 ≤ b.length → b.length ≤ s.params.maxLen →
    ∃ m, exec (.arpParse b) s = .next { s with responses := s.responses ++ [.ok (.arpMessage m)] }
      ∧ exec (.arpEnc m) s = .next { s with responses := s.responses ++ [.ok (.bytes (b.take 28))] }

/-- 42_arp.md R125: the reply is addressed to the request's sender and comes from the local identity. -/
def Obligations.ArpReplyAddressing : Prop :=
  ∀ (s : State) (q : ArpMessage) (lm li : Bytes), s.params.Valid → lm.length = 6 → li.length = 4 →
    ∃ o m, exec (.arpReply q lm li) s = .next { s with responses := s.responses ++ [.ok (.bytes o)] }
      ∧ exec (.arpParse o) s = .next { s with responses := s.responses ++ [.ok (.arpMessage m)] }
      ∧ m.targetMac = q.senderMac ∧ m.targetIp = q.senderIp
      ∧ m.senderMac.toBytes = lm ∧ m.senderIp.toBytes = li
      ∧ m.op = 2#16 ∧ m.hwtype = 1#16 ∧ m.prototype = 0x0800#16

/-- 43_ipv4.md R138: every field but the checksum survives, and re-encoding corrects the checksum and nothing else. -/
def Obligations.Ipv4RoundTrip : Prop :=
  (∀ (s : State) (h : Ipv4Header), s.params.Valid →
    ∃ o c, exec (.ip4Enc h) s = .next { s with responses := s.responses ++ [.ok (.bytes o)] }
      ∧ c = checksum (o.take 10 ++ [0, 0] ++ o.drop 12)
      ∧ exec (.ip4Parse o) s =
          .next { s with responses := s.responses ++ [.ok (.ipv4Header { h with checksum := c })] })
  ∧ ∀ (s : State) (b : Bytes), 20 ≤ b.length → b.length ≤ s.params.maxLen →
    ∃ h o, exec (.ip4Parse b) s = .next { s with responses := s.responses ++ [.ok (.ipv4Header h)] }
      ∧ exec (.ip4Enc h) s = .next { s with responses := s.responses ++ [.ok (.bytes o)] }
      ∧ o.take 10 = b.take 10 ∧ o.drop 12 = (b.take 20).drop 12
      ∧ (h.checksum = checksum (patch16 (b.take 20) 10 0#16) → o = b.take 20)

/-- 44_icmp.md R153. -/
def Obligations.IcmpRoundTrip : Prop :=
  (∀ (s : State) (m : IcmpMessage), 8 + m.data.length ≤ s.params.maxLen →
    ∃ o c, exec (.icmpEnc m) s = .next { s with responses := s.responses ++ [.ok (.bytes o)] }
      ∧ c = checksum (o.take 2 ++ [0, 0] ++ o.drop 4)
      ∧ exec (.icmpParse o) s =
          .next { s with responses := s.responses ++ [.ok (.icmpMessage { m with checksum := c })] })
  ∧ ∀ (s : State) (b : Bytes), 8 ≤ b.length → b.length ≤ s.params.maxLen →
    ∃ m o, exec (.icmpParse b) s = .next { s with responses := s.responses ++ [.ok (.icmpMessage m)] }
      ∧ exec (.icmpEnc m) s = .next { s with responses := s.responses ++ [.ok (.bytes o)] }
      ∧ o.take 2 = b.take 2 ∧ o.drop 4 = b.drop 4
      ∧ (m.checksum = checksum (patch16 b 2 0#16) → o = b)

/-- 45_udp.md R163: ports and data survive; the length and the checksum are the emitted ones. -/
def Obligations.UdpRoundTrip : Prop :=
  ∀ (s : State) (m : UdpMessage) (a d : Ip4), s.params.Valid → 8 + m.data.length ≤ s.params.maxLen →
    ∃ o m', exec (.udpEnc m a d) s = .next { s with responses := s.responses ++ [.ok (.bytes o)] }
      ∧ exec (.udpParse o) s = .next { s with responses := s.responses ++ [.ok (.udpMessage m')] }
      ∧ m'.srcPort = m.srcPort ∧ m'.dstPort = m.dstPort ∧ m'.data = m.data
      ∧ m'.length.toNat = 8 + m.data.length
      ∧ m'.checksum.toNat = (o.getD 6 0).toNat * 256 + (o.getD 7 0).toNat
      ∧ m'.checksum ≠ 0#16

/-- 46_tcp.md R172: with a data offset of 5, or unset, everything but the checksum survives, and the checksum is the
computed one: over pseudo-header and segment with its field zero. With a greater offset that reaches past the segment the parse
fails, and with any other the data differs. -/
def Obligations.TcpRoundTrip : Prop :=
  ∀ (s : State) (m : TcpMessage) (a d : Ip4), s.params.Valid → 20 + m.data.length ≤ s.params.maxLen →
    ∃ o, exec (.tcpEnc m a d) s = .next { s with responses := s.responses ++ [.ok (.bytes o)] }
      ∧ (m.dataOffset = 5#4 ∨ m.dataOffset = 0#4 → ∃ c,
          c = checksum (pseudoHeader a d 6#8 o.length ++ (o.take 16 ++ [0, 0] ++ o.drop 18))
          ∧ exec (.tcpParse o) s = .next { s with responses := s.responses ++
            [.ok (.tcpMessage { m with dataOffset := 5#4, checksum := c })] })
      ∧ (m.dataOffset ≠ 5#4 → m.dataOffset ≠ 0#4 →
          (20 + m.data.length < 4 * m.dataOffset.toNat ∧ exec (.tcpParse o) s =
            .next { s with responses := s.responses ++ [.error (.formatError .tcpHeaderExceedsBuffer)] })
          ∨ (4 * m.dataOffset.toNat ≤ 20 + m.data.length ∧ ∃ m',
            exec (.tcpParse o) s = .next { s with responses := s.responses ++ [.ok (.tcpMessage m')] }
            ∧ m'.data ≠ m.data))

/-- 43_ipv4.md R140, 44_icmp.md R155, 45_udp.md R165, 46_tcp.md R174: every output verifies, with the pseudo-header for UDP and TCP. -/
def Obligations.EncodedChecksumsVerify : Prop :=
  ∀ s : State,
    (∀ h, ∃ o, exec (.ip4Enc h) s = .next { s with responses := s.responses ++ [.ok (.bytes o)] } ∧ checksum o = 0#16)
    ∧ (∀ m : IcmpMessage, 8 + m.data.length ≤ s.params.maxLen →
        ∃ o, exec (.icmpEnc m) s = .next { s with responses := s.responses ++ [.ok (.bytes o)] } ∧ checksum o = 0#16)
    ∧ (∀ (m : UdpMessage) (a d : Ip4), 8 + m.data.length ≤ s.params.maxLen →
        ∃ o, exec (.udpEnc m a d) s = .next { s with responses := s.responses ++ [.ok (.bytes o)] }
          ∧ checksum (pseudoHeader a d 17#8 o.length ++ o) = 0#16)
    ∧ (∀ (m : TcpMessage) (a d : Ip4), 20 + m.data.length ≤ s.params.maxLen →
        ∃ o, exec (.tcpEnc m a d) s = .next { s with responses := s.responses ++ [.ok (.bytes o)] }
          ∧ checksum (pseudoHeader a d 6#8 o.length ++ o) = 0#16)

/-! ### The reply engine, said of the raw bytes of the frame -/

/-- 47_reply.md R187, R188, R198: the 42 bytes that answer an ARP request for the local address. -/
def Obligations.ReplyAnswersArpRequest : Prop :=
  ∀ (s : State) (frame : Bytes), s.cfg.v = 1#1 → frame.length ≤ s.params.maxLen → 42 ≤ frame.length →
    be16 frame 12 = 0x0806#16 → be16 frame 20 = 1#16 → ip4At frame 38 = s.cfg.ip →
    ∃ o : Bytes, exec (.reply frame) s = .next { s with responses := s.responses ++ [.ok (.reply (some o) 0#1)] }
      ∧ o.length = 42
      ∧ o = (frame.drop 6).take 6 ++ s.cfg.mac.toBytes ++ [0x08, 0x06]
          ++ [0x00, 0x01, 0x08, 0x00, 0x06, 0x04, 0x00, 0x02] ++ s.cfg.mac.toBytes ++ s.cfg.ip.toBytes
          ++ (frame.drop 22).take 6 ++ (frame.drop 28).take 4

/-- 47_reply.md R191, R197, R198: an Echo Request for the local address, whatever its code and checksums, is answered by an Echo
Reply with its identifier, sequence and data, in a frame of the same length. -/
def Obligations.ReplyEchoesIcmp : Prop :=
  ∀ (s : State) (frame : Bytes), s.cfg.v = 1#1 → frame.length ≤ s.params.maxLen → 42 ≤ frame.length →
    be16 frame 12 = 0x0800#16 → ip4At frame 30 = s.cfg.ip → byteAt frame 23 = 1#8 → byteAt frame 34 = 8#8 →
    ∃ o : Bytes, exec (.reply frame) s = .next { s with responses := s.responses ++ [.ok (.reply (some o) 0#1)] }
      ∧ o.length = frame.length
      ∧ o = (frame.drop 6).take 6 ++ s.cfg.mac.toBytes ++ [0x08, 0x00]
          ++ encodeIpv4 (replyHeader s.params s.cfg 1#8 (ip4At frame 26) (frame.length - 34))
          ++ encodeIcmp { type := 0#8, code := 0#8, checksum := 0#16, id := be16 frame 38, seq := be16 frame 40,
                          data := frame.drop 42 }

/-- 47_reply.md R192, R197, R198: every UDP datagram for the local address, whatever its port, is echoed with its ports swapped. -/
def Obligations.ReplyEchoesUdp : Prop :=
  ∀ (s : State) (frame : Bytes), s.cfg.v = 1#1 → frame.length ≤ s.params.maxLen → 42 ≤ frame.length →
    be16 frame 12 = 0x0800#16 → ip4At frame 30 = s.cfg.ip → byteAt frame 23 = 17#8 →
    ∃ o : Bytes, exec (.reply frame) s = .next { s with responses := s.responses ++ [.ok (.reply (some o) 0#1)] }
      ∧ o.length = frame.length
      ∧ o = (frame.drop 6).take 6 ++ s.cfg.mac.toBytes ++ [0x08, 0x00]
          ++ encodeIpv4 (replyHeader s.params s.cfg 17#8 (ip4At frame 26) (frame.length - 34))
          ++ encodeUdp { srcPort := be16 frame 36, dstPort := be16 frame 34, length := 0#16, checksum := 0#16,
                         data := frame.drop 42 } s.cfg.ip (ip4At frame 26)

/-- 47_reply.md R193, R194, R197: the transition table in its fixed order, on the raw bytes of a TCP segment for the local
address; the reply, where there is one, is 54 bytes. -/
def Obligations.ReplyFollowsTcpTable : Prop :=
  ∀ (s : State) (frame : Bytes), s.cfg.v = 1#1 → frame.length ≤ s.params.maxLen → 54 ≤ frame.length →
    be16 frame 12 = 0x0800#16 → ip4At frame 30 = s.cfg.ip → byteAt frame 23 = 6#8 →
    4 * ((byteAt frame 46).toNat / 16) ≤ frame.length - 34 →
    ∃ out est, exec (.reply frame) s = .next { s with responses := s.responses ++ [.ok (.reply out est)] }
      ∧ (∀ o, out = some o → o.length = 54)
      ∧ ∃ answer : BitVec 6 → BitVec 32 → Bytes,
        (∀ fl sq, answer fl sq =
          (frame.drop 6).take 6 ++ s.cfg.mac.toBytes ++ [0x08, 0x00]
          ++ encodeIpv4 (replyHeader s.params s.cfg 6#8 (ip4At frame 26) 20)
          ++ encodeTcp { srcPort := be16 frame 36, dstPort := be16 frame 34, seq := sq,
                         ack := be32 frame 38 + 1#32, dataOffset := 5#4, flags := fl,
                         window := s.params.replyTcpWindow, checksum := 0#16, urgent := 0#16, data := [] }
              s.cfg.ip (ip4At frame 26))
        ∧ (out, est) =
          (if be16 frame 36 ≠ s.cfg.port then (some (answer 0x14#6 0#32), 0#1)
          else if (byteAt frame 47).getLsbD 1 then (some (answer 0x12#6 1000#32), 0#1)
          else if (byteAt frame 47).getLsbD 0 then (some (answer 0x11#6 1001#32), 0#1)
          else if (byteAt frame 47).getLsbD 4 ∧ be32 frame 42 = 1001#32 then (none, 1#1)
          else (none, 0#1))

/-- 47_reply.md R186, R187, R189, R190, R191, R200: what gives `OK` and no frame, TCP apart. -/
def Obligations.ReplyDropsWithoutError : Prop :=
  ∀ (s : State) (frame : Bytes), s.cfg.v = 1#1 → frame.length ≤ s.params.maxLen →
    ((14 ≤ frame.length ∧ be16 frame 12 ≠ 0x0806#16 ∧ be16 frame 12 ≠ 0x0800#16)
    ∨ (42 ≤ frame.length ∧ be16 frame 12 = 0x0806#16 ∧ (be16 frame 20 ≠ 1#16 ∨ ip4At frame 38 ≠ s.cfg.ip))
    ∨ (34 ≤ frame.length ∧ be16 frame 12 = 0x0800#16 ∧ ip4At frame 30 ≠ s.cfg.ip)
    ∨ (34 ≤ frame.length ∧ be16 frame 12 = 0x0800#16 ∧ ip4At frame 30 = s.cfg.ip
        ∧ byteAt frame 23 ≠ 1#8 ∧ byteAt frame 23 ≠ 17#8 ∧ byteAt frame 23 ≠ 6#8)
    ∨ (42 ≤ frame.length ∧ be16 frame 12 = 0x0800#16 ∧ ip4At frame 30 = s.cfg.ip
        ∧ byteAt frame 23 = 1#8 ∧ byteAt frame 34 ≠ 8#8)) →
    exec (.reply frame) s = .next { s with responses := s.responses ++ [.ok (.reply none 0#1)] }

/-- 47_reply.md R199, 60_exceptions.md R241: exactly which frames give which `FormatError`, the outermost layer first; and a
configured engine gives no other error. -/
def Obligations.ReplyErrorsOutermostFirst : Prop :=
  ∀ (s : State) (frame : Bytes), s.cfg.v = 1#1 → frame.length ≤ s.params.maxLen →
    ∃ r, exec (.reply frame) s = .next { s with responses := s.responses ++ [r] }
      ∧ ∀ e, r = .error e ↔
        (e = .formatError .ethTooShort ∧ frame.length < 14)
        ∨ (e = .formatError .arpTooShort ∧ 14 ≤ frame.length ∧ be16 frame 12 = 0x0806#16 ∧ frame.length < 42)
        ∨ (e = .formatError .ip4TooShort ∧ 14 ≤ frame.length ∧ be16 frame 12 = 0x0800#16 ∧ frame.length < 34)
        ∨ (34 ≤ frame.length ∧ be16 frame 12 = 0x0800#16 ∧ ip4At frame 30 = s.cfg.ip
          ∧ ((e = .formatError .icmpTooShort ∧ byteAt frame 23 = 1#8 ∧ frame.length < 42)
            ∨ (e = .formatError .udpTooShort ∧ byteAt frame 23 = 17#8 ∧ frame.length < 42)
            ∨ (e = .formatError .tcpTooShort ∧ byteAt frame 23 = 6#8 ∧ frame.length < 54)
            ∨ (e = .formatError .tcpHeaderExceedsBuffer ∧ byteAt frame 23 = 6#8 ∧ 54 ≤ frame.length
              ∧ frame.length - 34 < 4 * ((byteAt frame 46).toNat / 16))))

/-- 47_reply.md R195: when `est` is 1, and that no frame then goes out. -/
def Obligations.EstSignalsRuleFourOnly : Prop :=
  ∀ (s : State) (frame : Bytes), s.cfg.v = 1#1 → frame.length ≤ s.params.maxLen →
    ∃ r, exec (.reply frame) s = .next { s with responses := s.responses ++ [r] }
      ∧ (r.est = some 1#1 ↔
          54 ≤ frame.length ∧ be16 frame 12 = 0x0800#16 ∧ ip4At frame 30 = s.cfg.ip ∧ byteAt frame 23 = 6#8
          ∧ 4 * ((byteAt frame 46).toNat / 16) ≤ frame.length - 34
          ∧ be16 frame 36 = s.cfg.port
          ∧ (byteAt frame 47).getLsbD 1 = false ∧ (byteAt frame 47).getLsbD 0 = false
          ∧ (byteAt frame 47).getLsbD 4 = true ∧ be32 frame 42 = 1001#32)
      ∧ (r.est = some 1#1 → r = .ok (.reply none 1#1))

/-- 20_memory.md R42: a reply is never longer than its request; 47_reply.md R185, R193, R195: `est` is 0 wherever a frame is sent. -/
def Obligations.ReplyNeverLongerThanRequest : Prop :=
  ∀ (s t : State) (frame o : Bytes) (est : BitVec 1),
    exec (.reply frame) s = .next t → t.responses = s.responses ++ [.ok (.reply (some o) est)] →
    o.length ≤ frame.length ∧ (o.length = 42 ∨ o.length = frame.length ∨ o.length = 54) ∧ est = 0#1

/-- 47_reply.md R186, R189, R191 to R195, 40_checksum.md R108: no step of `REPLY` looks at the destination MAC, at the IPv4 header
but its protocol and addresses, or at any received checksum: two IPv4 frames that differ there only get one answer. -/
def Obligations.ReplyIgnoresUntestedFields : Prop :=
  ∀ (s : State) (frame frame' : Bytes), frame.length = frame'.length → be16 frame 12 = 0x0800#16 →
    (∀ k, ¬ ReplyIgnores (byteAt frame 23).toNat k → byteAt frame k = byteAt frame' k) →
    exec (.reply frame) s = exec (.reply frame') s
end

