-- ==== Sys2Proof/Laws/Bytes.lean ====
section
/-! SUPPORT. Lemmas about reading and writing the bytes of a field: lengths, and each read of what was written. -/

namespace Sys2Proof

theorem bitField_eq (v hi lo : Nat) : bitField v hi lo = v / 2 ^ lo % 2 ^ (hi + 1 - lo) := by
  simp [bitField, Nat.shiftRight_eq_div_pow]

@[simp] theorem enc16_length (v : BitVec 16) : (enc16 v).length = 2 := rfl

@[simp] theorem enc32_length (v : BitVec 32) : (enc32 v).length = 4 := rfl

@[simp] theorem Mac.toBytes_length (m : Mac) : m.toBytes.length = 6 := rfl

@[simp] theorem Ip4.toBytes_length (a : Ip4) : a.toBytes.length = 4 := rfl

@[simp] theorem Mac.ofBytes_toBytes (m : Mac) : Mac.ofBytes? m.toBytes = some m := rfl

@[simp] theorem Ip4.ofBytes_toBytes (a : Ip4) : Ip4.ofBytes? a.toBytes = some a := rfl

/-- `Mac.ofBytes?` answers exactly for the sequences of length six. -/
theorem Mac.ofBytes_eq_some {b : Bytes} {m : Mac} : Mac.ofBytes? b = some m ↔ b = m.toBytes := by
  constructor
  · intro h
    unfold Mac.ofBytes? at h
    split at h
    · cases h; rfl
    · cases h
  · rintro rfl; rfl

/-- `Ip4.ofBytes?` answers exactly for the sequences of length four. -/
theorem Ip4.ofBytes_eq_some {b : Bytes} {a : Ip4} : Ip4.ofBytes? b = some a ↔ b = a.toBytes := by
  constructor
  · intro h
    unfold Ip4.ofBytes? at h
    split at h
    · cases h; rfl
    · cases h
  · rintro rfl; rfl

theorem Mac.ofBytes_isSome {b : Bytes} : (Mac.ofBytes? b).isSome ↔ b.length = 6 := by
  constructor
  · intro h
    obtain ⟨m, hm⟩ := Option.isSome_iff_exists.mp h
    rw [Mac.ofBytes_eq_some.mp hm]; rfl
  · intro h
    match b, h with
    | [_, _, _, _, _, _], _ => rfl

theorem Ip4.ofBytes_isSome {b : Bytes} : (Ip4.ofBytes? b).isSome ↔ b.length = 4 := by
  constructor
  · intro h
    obtain ⟨a, ha⟩ := Option.isSome_iff_exists.mp h
    rw [Ip4.ofBytes_eq_some.mp ha]; rfl
  · intro h
    match b, h with
    | [_, _, _, _], _ => rfl

@[simp] theorem byteAt_cons_zero (x : Byte) (b : Bytes) : byteAt (x :: b) 0 = x := rfl

@[simp] theorem byteAt_cons_succ (x : Byte) (b : Bytes) (i : Nat) : byteAt (x :: b) (i + 1) = byteAt b i := rfl

/-- Reading past a dropped front. -/
theorem byteAt_drop (b : Bytes) (k i : Nat) : byteAt (b.drop k) i = byteAt b (k + i) := by
  simp [byteAt, List.getD_eq_getElem?_getD]

theorem be16_drop (b : Bytes) (k i : Nat) : be16 (b.drop k) i = be16 b (k + i) := by
  simp [be16, byteAt_drop, Nat.add_assoc]

theorem be32_drop (b : Bytes) (k i : Nat) : be32 (b.drop k) i = be32 b (k + i) := by
  simp [be32, byteAt_drop, Nat.add_assoc]

theorem macAt_drop (b : Bytes) (k i : Nat) : macAt (b.drop k) i = macAt b (k + i) := by
  simp [macAt, byteAt_drop, Nat.add_assoc]

theorem ip4At_drop (b : Bytes) (k i : Nat) : ip4At (b.drop k) i = ip4At b (k + i) := by
  simp [ip4At, byteAt_drop, Nat.add_assoc]

theorem be16_toNat (b : Bytes) (i : Nat) : (be16 b i).toNat = (byteAt b i).toNat * 256 + (byteAt b (i + 1)).toNat := by
  have h1 := (byteAt b i).isLt
  have h2 := (byteAt b (i + 1)).isLt
  simp only [be16, BitVec.toNat_ofNat]
  omega

theorem be32_toNat (b : Bytes) (i : Nat) : (be32 b i).toNat =
    (byteAt b i).toNat * 2 ^ 24 + (byteAt b (i + 1)).toNat * 2 ^ 16 + (byteAt b (i + 2)).toNat * 2 ^ 8
      + (byteAt b (i + 3)).toNat := by
  have h1 := (byteAt b i).isLt
  have h2 := (byteAt b (i + 1)).isLt
  have h3 := (byteAt b (i + 2)).isLt
  have h4 := (byteAt b (i + 3)).isLt
  simp only [be32, BitVec.toNat_ofNat]
  omega

/-- The two bytes of `enc16 v` are read back as `v` (R14). -/
theorem be16_bytes_of_enc16 (v : BitVec 16) :
    BitVec.ofNat 16 ((BitVec.ofNat 8 (bitField v.toNat 15 8)).toNat * 256
      + (BitVec.ofNat 8 (bitField v.toNat 7 0)).toNat) = v := by
  have h := v.isLt
  apply BitVec.eq_of_toNat_eq
  simp only [bitField_eq, BitVec.toNat_ofNat]
  omega

/-- The four bytes of `enc32 v` are read back as `v` (R14). -/
theorem be32_bytes_of_enc32 (v : BitVec 32) :
    BitVec.ofNat 32 ((BitVec.ofNat 8 (bitField v.toNat 31 24)).toNat * 2 ^ 24
      + (BitVec.ofNat 8 (bitField v.toNat 23 16)).toNat * 2 ^ 16
      + (BitVec.ofNat 8 (bitField v.toNat 15 8)).toNat * 2 ^ 8
      + (BitVec.ofNat 8 (bitField v.toNat 7 0)).toNat) = v := by
  have h := v.isLt
  apply BitVec.eq_of_toNat_eq
  simp only [bitField_eq, BitVec.toNat_ofNat]
  omega

/-- The two bytes of `enc16 v` hold `v` (R14). -/
theorem enc16_toNat (v : BitVec 16) :
    (BitVec.ofNat 8 (bitField v.toNat 15 8)).toNat * 256 + (BitVec.ofNat 8 (bitField v.toNat 7 0)).toNat = v.toNat := by
  have := v.isLt
  simp only [bitField_eq, BitVec.toNat_ofNat]
  omega

/-- The four bytes of `enc32 v` hold `v` (R14). -/
theorem enc32_toNat (v : BitVec 32) :
    (BitVec.ofNat 8 (bitField v.toNat 31 24)).toNat * 2 ^ 24 + (BitVec.ofNat 8 (bitField v.toNat 23 16)).toNat * 2 ^ 16
      + (BitVec.ofNat 8 (bitField v.toNat 15 8)).toNat * 2 ^ 8 + (BitVec.ofNat 8 (bitField v.toNat 7 0)).toNat
      = v.toNat := by
  have := v.isLt
  simp only [bitField_eq, BitVec.toNat_ofNat]
  omega

theorem take_six_eq_macAt : ∀ c : Bytes, 6 ≤ c.length → c.take 6 = (macAt c 0).toBytes
  | _ :: _ :: _ :: _ :: _ :: _ :: _, _ => rfl
  | [], h | [_], h | [_, _], h | [_, _, _], h | [_, _, _, _], h | [_, _, _, _, _], h => by simp at h

theorem take_four_eq_ip4At : ∀ c : Bytes, 4 ≤ c.length → c.take 4 = (ip4At c 0).toBytes
  | _ :: _ :: _ :: _ :: _, _ => rfl
  | [], h | [_], h | [_, _], h | [_, _, _], h => by simp at h

/-- The bytes of a `MAC` read at `k` are the six bytes there. -/
theorem macAt_toBytes {b : Bytes} {k : Nat} (h : k + 6 ≤ b.length) : (macAt b k).toBytes = (b.drop k).take 6 := by
  rw [take_six_eq_macAt _ (by simp; omega), macAt_drop]; rfl

/-- The bytes of an `IP4` read at `k` are the four bytes there. -/
theorem ip4At_toBytes {b : Bytes} {k : Nat} (h : k + 4 ≤ b.length) : (ip4At b k).toBytes = (b.drop k).take 4 := by
  rw [take_four_eq_ip4At _ (by simp; omega), ip4At_drop]; rfl

/-- Reading two bytes as a number and writing it gives the two bytes (R14). -/
theorem enc16_be16 {b : Bytes} {k : Nat} (h : k + 2 ≤ b.length) : enc16 (be16 b k) = (b.drop k).take 2 := by
  rw [List.drop_eq_getElem_cons (i := k) (by omega), List.drop_eq_getElem_cons (i := k + 1) (by omega)]
  have e : (be16 b k).toNat = b[k].toNat * 256 + b[k + 1].toNat := by
    rw [be16_toNat]
    simp only [byteAt, List.getD_eq_getElem _ _ (show k < b.length by omega),
      List.getD_eq_getElem _ _ (show k + 1 < b.length by omega)]
  have h1 := b[k].isLt
  have h2 := b[k + 1].isLt
  simp only [enc16, e, bitField_eq, List.take_succ_cons, List.take_zero]
  congr 1
  · apply BitVec.eq_of_toNat_eq; simp only [BitVec.toNat_ofNat]; omega
  · congr 1; apply BitVec.eq_of_toNat_eq; simp only [BitVec.toNat_ofNat]; omega

end Sys2Proof
end

