-- ==== Sys2Proof/Laws/Checksum.lean ====
section
/-! SUPPORT. The fuel of `fold` suffices: it is the loop of 40_checksum.md R102; lengths of what the checksum helpers build. -/

namespace Sys2Proof

theorem foldPass_eq (s : Nat) : foldPass s = s % 65536 + s / 65536 := by
  have h : s &&& 0xFFFF = s % 65536 := Nat.and_two_pow_sub_one_eq_mod s 16
  simp [foldPass, h, Nat.shiftRight_eq_div_pow]

/-- "each pass strictly lowers `s` while `s > 0xFFFF`" (R102). -/
theorem foldPass_lt {s : Nat} (h : s > 0xFFFF) : foldPass s < s := by
  rw [foldPass_eq]; omega

/-- Fuel above the value never matters. -/
theorem foldLoop_eq_of_le : ∀ {n m s : Nat}, s ≤ n → s ≤ m → foldLoop n s = foldLoop m s := by
  intro n
  induction n with
  | zero =>
    intro m s hn _
    obtain rfl : s = 0 := by omega
    cases m <;> rfl
  | succ n ih =>
    intro m s hn hm
    cases m with
    | zero =>
      obtain rfl : s = 0 := by omega
      rfl
    | succ m =>
      simp only [foldLoop]
      split
      · have := foldPass_lt ‹_›
        exact ih (by omega) (by omega)
      · rfl

/-- The loop of R102, one turn. -/
theorem fold_step (s : Nat) : fold s = if s > 0xFFFF then fold (foldPass s) else s := by
  cases s with
  | zero => rfl
  | succ n =>
    show (if n + 1 > 0xFFFF then foldLoop n (foldPass (n + 1)) else n + 1) = _
    split
    · have := foldPass_lt ‹_›
      exact foldLoop_eq_of_le (by omega) (Nat.le_refl _)
    · rfl

theorem patch16_length (b : Bytes) (off : Nat) (v : BitVec 16) (h : off + 2 ≤ b.length) :
    (patch16 b off v).length = b.length := by
  simp only [patch16, List.length_append, List.length_take, enc16_length, List.length_drop]
  omega

@[simp] theorem pseudoHeader_length (srcIp dstIp : Ip4) (proto : Byte) (len : Nat) :
    (pseudoHeader srcIp dstIp proto len).length = 12 := rfl

end Sys2Proof
end

