-- ==== Sys2Proof/Laws/Codecs.lean ====
section
/-! SUPPORT. The length of what each encoder emits (41_ethernet.md R111, 42_arp.md R121, 43_ipv4.md R136, 44_icmp.md R151,
45_udp.md R161, 46_tcp.md R171), and of the reply engine's frames built from them. -/

namespace Sys2Proof.Machine

@[simp] theorem encodeEthernet_length (f : EthernetFrame) : (encodeEthernet f).length = 14 + f.payload.length := by
  simp [encodeEthernet]
  omega

@[simp] theorem encodeArp_length (m : ArpMessage) : (encodeArp m).length = 28 := rfl

@[simp] theorem encodeIpv4_length (h : Ipv4Header) : (encodeIpv4 h).length = 20 := rfl

@[simp] theorem encodeIcmp_length (m : IcmpMessage) : (encodeIcmp m).length = 8 + m.data.length := by
  rw [encodeIcmp, patch16_length] <;> (simp [icmpUnsummed]; try omega)

@[simp] theorem encodeUdp_length (m : UdpMessage) (srcIp dstIp : Ip4) :
    (encodeUdp m srcIp dstIp).length = 8 + m.data.length := by
  rw [encodeUdp, patch16_length] <;> (simp [udpUnsummed]; try omega)

@[simp] theorem encodeTcp_length (m : TcpMessage) (srcIp dstIp : Ip4) :
    (encodeTcp m srcIp dstIp).length = 20 + m.data.length := by
  rw [encodeTcp, patch16_length] <;> (simp [tcpUnsummed]; try omega)

@[simp] theorem ipReplyFrame_length (p : Config.Params) (cfg : Registers) (eth : EthernetFrame) (ip : Ipv4Header)
    (body : Bytes) : (ipReplyFrame p cfg eth ip body).length = 34 + body.length := by
  simp [ipReplyFrame]; omega

@[simp] theorem tcpReplySegment_length (p : Config.Params) (cfg : Registers) (m : TcpMessage) (fl : BitVec 6)
    (sq a : BitVec 32) (ip : Ipv4Header) : (tcpReplySegment p cfg m fl sq a ip).length = 20 := by
  simp [tcpReplySegment]

end Sys2Proof.Machine
end

