-- ==== Sys2Proof/Laws/Decode.lean ====
section
/-! SUPPORT. The operation table is unambiguous (30_encoding.md R61: "exact match on all eight bits"), and each row's zero
operands are operands of that row. -/

namespace Sys2Proof

/-- No selector matches two rows of the table. -/
theorem operationTable_no_overlap :
    operationTable.Pairwise fun a b => a.pattern &&& (a.mask &&& b.mask) ≠ b.pattern &&& (a.mask &&& b.mask) := by
  decide

/-- The row an operation's selector selects is the operation's own: every table row is found by its pattern. -/
theorem operationTable_found_by_pattern :
    ∀ row ∈ operationTable, selectOperation row.pattern = some row.operation := by
  decide

/-- The zero operands of a row are operands its operation takes (log 3). -/
theorem assemble_zeroOperands (o : Operation) : (assemble o (zeroOperands o)).isSome = true := by
  cases o <;> rfl

@[simp] theorem selectOperation_csum : selectOperation 0x00#8 = some .csum := by decide

@[simp] theorem selectOperation_ethParse : selectOperation 0x01#8 = some .ethParse := by decide

@[simp] theorem selectOperation_ethEnc : selectOperation 0x02#8 = some .ethEnc := by decide

@[simp] theorem selectOperation_arpParse : selectOperation 0x03#8 = some .arpParse := by decide

@[simp] theorem selectOperation_arpEnc : selectOperation 0x04#8 = some .arpEnc := by decide

@[simp] theorem selectOperation_arpReply : selectOperation 0x05#8 = some .arpReply := by decide

@[simp] theorem selectOperation_ip4Parse : selectOperation 0x06#8 = some .ip4Parse := by decide

@[simp] theorem selectOperation_ip4Enc : selectOperation 0x07#8 = some .ip4Enc := by decide

@[simp] theorem selectOperation_icmpParse : selectOperation 0x08#8 = some .icmpParse := by decide

@[simp] theorem selectOperation_icmpEnc : selectOperation 0x09#8 = some .icmpEnc := by decide

@[simp] theorem selectOperation_udpParse : selectOperation 0x0A#8 = some .udpParse := by decide

@[simp] theorem selectOperation_udpEnc : selectOperation 0x0B#8 = some .udpEnc := by decide

@[simp] theorem selectOperation_tcpParse : selectOperation 0x0C#8 = some .tcpParse := by decide

@[simp] theorem selectOperation_tcpEnc : selectOperation 0x0D#8 = some .tcpEnc := by decide

@[simp] theorem selectOperation_reply : selectOperation 0x0E#8 = some .reply := by decide

@[simp] theorem selectOperation_cfgSet : selectOperation 0x0F#8 = some .cfgSet := by decide

end Sys2Proof
end

