-- ==== Sys2Proof/Laws/State.lean ====
section
/-! SUPPORT. One lemma per field of State per update of State, each true by unfolding the update. -/

namespace Sys2Proof.Machine

@[simp] theorem State.respond_cfg (s : State) (r : Response) :
    (s.respond r).cfg = s.cfg := rfl

@[simp] theorem State.respond_params (s : State) (r : Response) :
    (s.respond r).params = s.params := rfl

@[simp] theorem State.respond_inbox (s : State) (r : Response) :
    (s.respond r).inbox = s.inbox := rfl

@[simp] theorem State.respond_responses (s : State) (r : Response) :
    (s.respond r).responses = s.responses ++ [r] := rfl

@[simp] theorem State.respond_freeNext (s : State) (r : Response) :
    (s.respond r).freeNext = s.freeNext := rfl

@[simp] theorem State.raise_cfg (s : State) (e : EngineError) :
    (s.raise e).cfg = s.cfg := rfl

@[simp] theorem State.raise_params (s : State) (e : EngineError) :
    (s.raise e).params = s.params := rfl

@[simp] theorem State.raise_inbox (s : State) (e : EngineError) :
    (s.raise e).inbox = s.inbox := rfl

@[simp] theorem State.raise_responses (s : State) (e : EngineError) :
    (s.raise e).responses = s.responses ++ [.error e] := rfl

@[simp] theorem State.raise_freeNext (s : State) (e : EngineError) :
    (s.raise e).freeNext = s.freeNext := rfl

@[simp] theorem State.takeEvent_cfg (s : State) (rest : List HostEvent) :
    (s.takeEvent rest).cfg = s.cfg := rfl

@[simp] theorem State.takeEvent_params (s : State) (rest : List HostEvent) :
    (s.takeEvent rest).params = s.params := rfl

@[simp] theorem State.takeEvent_inbox (s : State) (rest : List HostEvent) :
    (s.takeEvent rest).inbox = rest := rfl

@[simp] theorem State.takeEvent_responses (s : State) (rest : List HostEvent) :
    (s.takeEvent rest).responses = s.responses := rfl

@[simp] theorem State.takeEvent_freeNext (s : State) (rest : List HostEvent) :
    (s.takeEvent rest).freeNext = s.freeNext := rfl

@[simp] theorem State.configure_cfg (s : State) (mac : Mac) (ip : Ip4) (port : BitVec 16) :
    (s.configure mac ip port).cfg = { mac := mac, ip := ip, port := port, v := 1#1 } := rfl

@[simp] theorem State.configure_params (s : State) (mac : Mac) (ip : Ip4) (port : BitVec 16) :
    (s.configure mac ip port).params = s.params := rfl

@[simp] theorem State.configure_inbox (s : State) (mac : Mac) (ip : Ip4) (port : BitVec 16) :
    (s.configure mac ip port).inbox = s.inbox := rfl

@[simp] theorem State.configure_responses (s : State) (mac : Mac) (ip : Ip4) (port : BitVec 16) :
    (s.configure mac ip port).responses = s.responses := rfl

@[simp] theorem State.configure_freeNext (s : State) (mac : Mac) (ip : Ip4) (port : BitVec 16) :
    (s.configure mac ip port).freeNext = s.freeNext := rfl

@[simp] theorem State.resetEngine_cfg (s : State) :
    (s.resetEngine).cfg = resetRegisters s.freeNext := rfl

@[simp] theorem State.resetEngine_params (s : State) :
    (s.resetEngine).params = s.params := rfl

@[simp] theorem State.resetEngine_inbox (s : State) :
    (s.resetEngine).inbox = s.inbox := rfl

@[simp] theorem State.resetEngine_responses (s : State) :
    (s.resetEngine).responses = s.responses := rfl

@[simp] theorem State.resetEngine_freeNext (s : State) :
    (s.resetEngine).freeNext = s.freeNext + 1 := rfl

@[simp] theorem resetRegisters_v (n : Nat) : (resetRegisters n).v = 0#1 := rfl

@[simp] theorem State.reset_cfg : State.reset.cfg = resetRegisters 0 := rfl

@[simp] theorem State.reset_params : State.reset.params = Config.defaultParams := rfl

@[simp] theorem State.reset_inbox : State.reset.inbox = [] := rfl

@[simp] theorem State.reset_responses : State.reset.responses = [] := rfl

end Sys2Proof.Machine
end

