-- ==== Sys2Proof/Laws/Ops.lean ====
section
/-! SUPPORT. What each shared operation of the machine can do, said once: a transaction either answers exactly one response
and changes nothing else, or refuses; a step takes exactly one host event. -/

namespace Sys2Proof.Machine

open Host (Outcome)

/-- The response a transaction's outcome is returned as. -/
theorem transact_ok (r : Result) (s : State) : transact true (.ok r) s = .next (s.respond (.ok r)) := rfl

theorem transact_error (e : EngineError) (s : State) : transact true (.error e) s = .next (s.raise e) := rfl

theorem transact_outside (o : Except EngineError Result) (s : State) :
    transact false o s = .refused .beyondMaxLen := rfl

/-- Inside the domain a transaction always answers: one response, nothing else changed (R246, R243). -/
theorem transact_inside (o : Except EngineError Result) (s : State) :
    ∃ r, transact true o s = .next { s with responses := s.responses ++ [r] } := by
  cases o with
  | ok r => exact ⟨.ok r, rfl⟩
  | error e => exact ⟨.error e, rfl⟩

/-- A transaction that answers a next state was inside the domain, and returned one response. -/
theorem transact_next {d : Bool} {o : Except EngineError Result} {s t : State} (h : transact d o s = .next t) :
    d = true ∧ ((∃ r, o = .ok r ∧ t = s.respond (.ok r)) ∨ (∃ e, o = .error e ∧ t = s.respond (.error e))) := by
  unfold transact at h
  split at h
  · refine ⟨‹_›, ?_⟩
    split at h
    · exact .inl ⟨_, rfl, by simpa using h.symm⟩
    · exact .inr ⟨_, rfl, by simpa [State.raise] using h.symm⟩
  · cases h

/-- A transaction refuses exactly outside the domain. -/
theorem transact_refused_iff (d : Bool) (o : Except EngineError Result) (s : State) (x : Refusal) :
    transact d o s = .refused x ↔ d = false ∧ x = .beyondMaxLen := by
  cases d <;> cases o <;> simp [transact, eq_comm]

@[simp] theorem step_empty {s : State} (h : s.inbox = []) : step s = .next s := by
  simp [step, h, State.idle]

theorem step_reset {s : State} {rest : List HostEvent} (h : s.inbox = .reset :: rest) :
    step s = .next (s.takeEvent rest).resetEngine := by
  simp [step, h]

theorem step_request {s : State} {r : Request} {rest : List HostEvent} (h : s.inbox = .request r :: rest) :
    step s = match decode r with
      | .error e => answerUndecoded e (s.takeEvent rest)
      | .ok i => exec i (s.takeEvent rest) := by
  rcases hd : decode r with e | i <;> simp [step, h, hd]

/-- Everything a step that answers a next state can have done. -/
theorem step_cases {s t : State} (h : step s = .next t) :
    (s.inbox = [] ∧ t = s)
    ∨ (∃ rest, s.inbox = .reset :: rest ∧ t = (s.takeEvent rest).resetEngine)
    ∨ (∃ r rest op, s.inbox = .request r :: rest ∧ decode r = .error (.illegalOp op)
        ∧ t = (s.takeEvent rest).raise .illegalOp)
    ∨ (∃ r rest i, s.inbox = .request r :: rest ∧ decode r = .ok i ∧ exec i (s.takeEvent rest) = .next t) := by
  unfold step at h
  split at h
  · exact .inl ⟨‹_›, by simpa [State.idle] using h.symm⟩
  · exact .inr (.inl ⟨_, ‹_›, by simpa using h.symm⟩)
  · next r rest hin =>
    split at h
    · next e hd =>
      cases e with
      | illegalOp op => exact .inr (.inr (.inl ⟨r, rest, op, hin, hd, by simpa [answerUndecoded] using h.symm⟩))
      | malformedOperands o => simp [answerUndecoded] at h
    · exact .inr (.inr (.inr ⟨r, rest, _, hin, ‹_›, h⟩))

end Sys2Proof.Machine
end

