-- ==== Sys2Proof/Laws/Exec.lean ====
section
/-! SUPPORT. Every operation said once: it is one transaction over the domain of 20_memory.md R41, whose outcome is a function of
the operands, the parameters and the registers, after the register writes of `CFG.SET`. Later proofs cite `exec_eq` and
`exec_next` and unfold no meaning. -/

namespace Sys2Proof.Machine

/-- The result or error of an operation (30_encoding.md R61), apart from the state it leaves. -/
def outcomeOf (p : Config.Params) (cfg : Registers) : Instr → Except EngineError Result
  | .csum b => .ok (.u16 (checksum b))
  | .ethParse b => (parseEthernet b).map .ethernetFrame
  | .ethEnc f => .ok (.bytes (encodeEthernet f))
  | .arpParse b => (parseArp b).map .arpMessage
  | .arpEnc m => .ok (.bytes (encodeArp m))
  | .arpReply q localMac localIpv4 => (buildArpReply q localMac localIpv4).map .bytes
  | .ip4Parse b => (parseIpv4 b).map .ipv4Header
  | .ip4Enc h => .ok (.bytes (encodeIpv4 h))
  | .icmpParse b => (parseIcmp b).map .icmpMessage
  | .icmpEnc m => .ok (.bytes (encodeIcmp m))
  | .udpParse b => (parseUdp b).map .udpMessage
  | .udpEnc m srcIp dstIp => .ok (.bytes (encodeUdp m srcIp dstIp))
  | .tcpParse b => (parseTcp b).map .tcpMessage
  | .tcpEnc m srcIp dstIp => .ok (.bytes (encodeTcp m srcIp dstIp))
  | .reply frame => (replyFrame p cfg frame).map fun r => .reply r.1 r.2
  | .cfgSet _ _ _ => .ok .nothing

/-- The registers an operation leaves: `CFG.SET` writes all four, no other operation any (10_state.md R24). -/
def registersAfter (cfg : Registers) : Instr → Registers
  | .cfgSet mac ip port => { mac := mac, ip := ip, port := port, v := 1#1 }
  | _ => cfg

/-- The response an outcome is returned as (60_exceptions.md R240, R243). -/
def responseOf : Except EngineError Result → Response
  | .ok r => .ok r
  | .error e => .error e

@[simp] theorem responseOf_ok (r : Result) : responseOf (.ok r) = .ok r := rfl

@[simp] theorem responseOf_error (e : EngineError) : responseOf (.error e) = .error e := rfl

theorem transact_eq (d : Bool) (o : Except EngineError Result) (s : State) :
    transact d o s = if d then .next { s with responses := s.responses ++ [responseOf o] } else .refused .beyondMaxLen := by
  cases o <;> rfl

/-- Every operation is one transaction. -/
theorem exec_eq (i : Instr) (s : State) :
    exec i s = if i.wellFormed s.params then
        .next { s with
          cfg := registersAfter s.cfg i
          responses := s.responses ++ [responseOf (outcomeOf s.params s.cfg i)] }
      else .refused .beyondMaxLen := by
  have h : exec i s = transact (i.wellFormed s.params) (outcomeOf s.params s.cfg i) { s with cfg := registersAfter s.cfg i } := by
    cases i <;> rfl
  rw [h, transact_eq]

/-- An operation inside the domain answers. -/
theorem exec_next {i : Instr} {s : State} (h : i.wellFormed s.params = true) :
    exec i s = .next { s with
      cfg := registersAfter s.cfg i
      responses := s.responses ++ [responseOf (outcomeOf s.params s.cfg i)] } := by
  rw [exec_eq, if_pos h]

/-- An operation that answered was inside the domain, and its next state is that one. -/
theorem exec_next_inv {i : Instr} {s t : State} (h : exec i s = .next t) :
    i.wellFormed s.params = true ∧ t = { s with
      cfg := registersAfter s.cfg i
      responses := s.responses ++ [responseOf (outcomeOf s.params s.cfg i)] } := by
  rw [exec_eq] at h
  split at h
  · exact ⟨‹_›, by simpa using h.symm⟩
  · cases h

/-- An operation other than `CFG.SET`, inside the domain, returns the response of its outcome and changes nothing else. -/
theorem exec_answers {i : Instr} {s : State} {r : Except EngineError Result} (h : i.wellFormed s.params = true)
    (ho : outcomeOf s.params s.cfg i = r) (hr : registersAfter s.cfg i = s.cfg) :
    exec i s = .next { s with responses := s.responses ++ [responseOf r] } := by
  rw [exec_next h, ho, hr]

/-- `REPLY` where its reaction is a result: zero or one frame and the bit `est`. -/
theorem exec_reply_ok {s : State} {frame : Bytes} {r : Option Bytes × BitVec 1} (h : frame.length ≤ s.params.maxLen)
    (hr : replyFrame s.params s.cfg frame = .ok r) :
    exec (.reply frame) s = .next { s with responses := s.responses ++ [.ok (.reply r.1 r.2)] } :=
  exec_answers (r := .ok (.reply r.1 r.2)) (by simpa [Instr.wellFormed] using h) (by rw [outcomeOf, hr]; rfl) rfl

/-- `REPLY` where its reaction is an error. -/
theorem exec_reply_error {s : State} {frame : Bytes} {e : EngineError} (h : frame.length ≤ s.params.maxLen)
    (hr : replyFrame s.params s.cfg frame = .error e) :
    exec (.reply frame) s = .next { s with responses := s.responses ++ [.error e] } :=
  exec_answers (r := .error e) (by simpa [Instr.wellFormed] using h) (by rw [outcomeOf, hr]; rfl) rfl

end Sys2Proof.Machine
end

