-- ==== Sys2Proof/Laws/PerInstr.lean ====
section
/-! SUPPORT. What holds of every operation as syntax, one lemma per constructor: its selector is one of the sixteen assigned
values, and its domain only grows with `MAXLEN`. -/

namespace Sys2Proof.Laws.Selector

/-- The operation's selector is assigned (30_encoding.md R61, R62), and the table's row it selects takes its operands. -/
def Statement (i : Instr) : Prop := i.selector.toNat < 0x10 ∧ (encode i).operands.length ≠ 0

theorem csum (b : Bytes) : Statement (.csum b) :=
  ⟨Nat.le_of_ble_eq_true rfl, Nat.succ_ne_zero _⟩

theorem ethParse (b : Bytes) : Statement (.ethParse b) :=
  ⟨Nat.le_of_ble_eq_true rfl, Nat.succ_ne_zero _⟩

theorem ethEnc (f : EthernetFrame) : Statement (.ethEnc f) :=
  ⟨Nat.le_of_ble_eq_true rfl, Nat.succ_ne_zero _⟩

theorem arpParse (b : Bytes) : Statement (.arpParse b) :=
  ⟨Nat.le_of_ble_eq_true rfl, Nat.succ_ne_zero _⟩

theorem arpEnc (m : ArpMessage) : Statement (.arpEnc m) :=
  ⟨Nat.le_of_ble_eq_true rfl, Nat.succ_ne_zero _⟩

theorem arpReply (q : ArpMessage) (localMac : Bytes) (localIpv4 : Bytes) : Statement (.arpReply q localMac localIpv4) :=
  ⟨Nat.le_of_ble_eq_true rfl, Nat.succ_ne_zero _⟩

theorem ip4Parse (b : Bytes) : Statement (.ip4Parse b) :=
  ⟨Nat.le_of_ble_eq_true rfl, Nat.succ_ne_zero _⟩

theorem ip4Enc (h : Ipv4Header) : Statement (.ip4Enc h) :=
  ⟨Nat.le_of_ble_eq_true rfl, Nat.succ_ne_zero _⟩

theorem icmpParse (b : Bytes) : Statement (.icmpParse b) :=
  ⟨Nat.le_of_ble_eq_true rfl, Nat.succ_ne_zero _⟩

theorem icmpEnc (m : IcmpMessage) : Statement (.icmpEnc m) :=
  ⟨Nat.le_of_ble_eq_true rfl, Nat.succ_ne_zero _⟩

theorem udpParse (b : Bytes) : Statement (.udpParse b) :=
  ⟨Nat.le_of_ble_eq_true rfl, Nat.succ_ne_zero _⟩

theorem udpEnc (m : UdpMessage) (srcIp : Ip4) (dstIp : Ip4) : Statement (.udpEnc m srcIp dstIp) :=
  ⟨Nat.le_of_ble_eq_true rfl, Nat.succ_ne_zero _⟩

theorem tcpParse (b : Bytes) : Statement (.tcpParse b) :=
  ⟨Nat.le_of_ble_eq_true rfl, Nat.succ_ne_zero _⟩

theorem tcpEnc (m : TcpMessage) (srcIp : Ip4) (dstIp : Ip4) : Statement (.tcpEnc m srcIp dstIp) :=
  ⟨Nat.le_of_ble_eq_true rfl, Nat.succ_ne_zero _⟩

theorem reply (frame : Bytes) : Statement (.reply frame) :=
  ⟨Nat.le_of_ble_eq_true rfl, Nat.succ_ne_zero _⟩

theorem cfgSet (mac : Mac) (ip : Ip4) (port : BitVec 16) : Statement (.cfgSet mac ip port) :=
  ⟨Nat.le_of_ble_eq_true rfl, Nat.succ_ne_zero _⟩

end Sys2Proof.Laws.Selector

namespace Sys2Proof.Laws.Domain

/-- A request inside the domain of 20_memory.md R41 stays inside it when `MAXLEN` grows. -/
def Statement (i : Instr) : Prop :=
  ∀ p p' : Config.Params, p.maxLen ≤ p'.maxLen → i.wellFormed p = true → i.wellFormed p' = true

/-- A length within one bound is within a greater one. -/
theorem within_grows {n m m' : Nat} (h : m ≤ m') (hw : decide (n ≤ m) = true) : decide (n ≤ m') = true :=
  decide_eq_true (Nat.le_trans (of_decide_eq_true hw) h)

theorem csum (b : Bytes) : Statement (.csum b) :=
  fun _ _ h hw => within_grows h hw

theorem ethParse (b : Bytes) : Statement (.ethParse b) :=
  fun _ _ h hw => within_grows h hw

theorem ethEnc (f : EthernetFrame) : Statement (.ethEnc f) :=
  fun _ _ h hw => within_grows h hw

theorem arpParse (b : Bytes) : Statement (.arpParse b) :=
  fun _ _ h hw => within_grows h hw

theorem arpEnc (m : ArpMessage) : Statement (.arpEnc m) :=
  fun _ _ _ h => h

theorem arpReply (q : ArpMessage) (localMac : Bytes) (localIpv4 : Bytes) : Statement (.arpReply q localMac localIpv4) :=
  fun _ _ h hw => by
    rw [Instr.wellFormed, Bool.and_eq_true] at hw ⊢
    exact ⟨within_grows h hw.1, within_grows h hw.2⟩

theorem ip4Parse (b : Bytes) : Statement (.ip4Parse b) :=
  fun _ _ h hw => within_grows h hw

theorem ip4Enc (h : Ipv4Header) : Statement (.ip4Enc h) :=
  fun _ _ _ h => h

theorem icmpParse (b : Bytes) : Statement (.icmpParse b) :=
  fun _ _ h hw => within_grows h hw

theorem icmpEnc (m : IcmpMessage) : Statement (.icmpEnc m) :=
  fun _ _ h hw => within_grows h hw

theorem udpParse (b : Bytes) : Statement (.udpParse b) :=
  fun _ _ h hw => within_grows h hw

theorem udpEnc (m : UdpMessage) (srcIp : Ip4) (dstIp : Ip4) : Statement (.udpEnc m srcIp dstIp) :=
  fun _ _ h hw => within_grows h hw

theorem tcpParse (b : Bytes) : Statement (.tcpParse b) :=
  fun _ _ h hw => within_grows h hw

theorem tcpEnc (m : TcpMessage) (srcIp : Ip4) (dstIp : Ip4) : Statement (.tcpEnc m srcIp dstIp) :=
  fun _ _ h hw => within_grows h hw

theorem reply (frame : Bytes) : Statement (.reply frame) :=
  fun _ _ h hw => within_grows h hw

theorem cfgSet (mac : Mac) (ip : Ip4) (port : BitVec 16) : Statement (.cfgSet mac ip port) :=
  fun _ _ _ h => h

end Sys2Proof.Laws.Domain
end

