-- ==== Sys2Proof/Laws/Reply.lean ====
section
/-! SUPPORT. Each layer of the reply engine (47_reply.md R186 to R194) said once over the raw bytes of the frame: what it does
on a frame too short for the layer, and what it does on any other. -/

namespace Sys2Proof.Machine

/-- The Ethernet record of a frame of at least 14 bytes (41_ethernet.md R110). -/
def ethernetOf (f : Bytes) : EthernetFrame :=
  { dst := macAt f 0, src := macAt f 6, ethertype := be16 f 12, payload := f.drop 14 }

/-- The IPv4 record of a frame of at least 34 bytes (43_ipv4.md R135), its fields read from the frame. -/
def ipv4Of (f : Bytes) : Ipv4Header :=
  { version := BitVec.ofNat 4 (bitField (byteAt f 14).toNat 7 4)
    ihl := BitVec.ofNat 4 (bitField (byteAt f 14).toNat 3 0)
    tos := byteAt f 15
    totalLength := be16 f 16
    id := be16 f 18
    flags := BitVec.ofNat 3 (bitField (be16 f 20).toNat 15 13)
    fragOffset := BitVec.ofNat 13 (bitField (be16 f 20).toNat 12 0)
    ttl := byteAt f 22
    protocol := byteAt f 23
    checksum := be16 f 24
    src := ip4At f 26
    dst := ip4At f 30 }

/-- The TCP record of a frame of at least 54 bytes whose data offset fits (46_tcp.md R170), its fields read from the frame. -/
def tcpOf (f : Bytes) : TcpMessage :=
  { srcPort := be16 f 34
    dstPort := be16 f 36
    seq := be32 f 38
    ack := be32 f 42
    dataOffset := BitVec.ofNat 4 ((byteAt f 46).toNat / 16)
    flags := BitVec.ofNat 6 (bitField (byteAt f 47).toNat 5 0)
    window := be16 f 48
    checksum := be16 f 50
    urgent := be16 f 52
    data := f.drop (34 + 4 * ((byteAt f 46).toNat / 16)) }

theorem ethernetOf_payload (f : Bytes) : (ethernetOf f).payload = f.drop 14 := rfl

theorem replyFrame_unconfigured {c : Registers} (p : Config.Params) (f : Bytes) (hv : c.v = 0#1) :
    replyFrame p c f = .error .notConfigured := by
  unfold replyFrame
  rw [if_pos hv]

theorem replyFrame_short {c : Registers} {f : Bytes} (p : Config.Params) (hv : c.v = 1#1) (h : f.length < 14) :
    replyFrame p c f = .error (.formatError .ethTooShort) := by
  unfold replyFrame
  rw [if_neg (by rw [hv]; decide)]
  simp only [parseEthernet, if_pos h]

/-- R186: the EtherType selects the handler. -/
theorem replyFrame_by_ethertype {c : Registers} {f : Bytes} (p : Config.Params) (hv : c.v = 1#1) (h : 14 ≤ f.length) :
    replyFrame p c f =
      if be16 f 12 = 0x0806#16 then replyArp c (ethernetOf f)
      else if be16 f 12 = 0x0800#16 then replyIpv4 p c (ethernetOf f)
      else .ok (none, 0#1) := by
  unfold replyFrame
  rw [if_neg (by rw [hv]; decide)]
  simp only [parseEthernet, if_neg (by omega : ¬ f.length < 14)]
  rfl

theorem replyArp_short {f : Bytes} (c : Registers) (h : f.length < 42) :
    replyArp c (ethernetOf f) = .error (.formatError .arpTooShort) := by
  unfold replyArp
  rw [ethernetOf_payload]
  simp only [parseArp]
  rw [if_pos (by simp; omega)]

/-- R187, R188. -/
theorem replyArp_by_fields {f : Bytes} (c : Registers) (h : 42 ≤ f.length) :
    replyArp c (ethernetOf f) =
      if be16 f 20 ≠ 1#16 then .ok (none, 0#1)
      else if ip4At f 38 ≠ c.ip then .ok (none, 0#1)
      else .ok (some ((macAt f 6).toBytes ++ c.mac.toBytes ++ [0x08, 0x06]
        ++ ([0x00, 0x01, 0x08, 0x00, 0x06, 0x04, 0x00, 0x02] ++ c.mac.toBytes ++ c.ip.toBytes
          ++ (macAt f 22).toBytes ++ (ip4At f 28).toBytes)), 0#1) := by
  unfold replyArp
  rw [ethernetOf_payload]
  simp only [parseArp]
  rw [if_neg (by simp; omega)]
  simp only [byteAt_drop, be16_drop, ip4At_drop, macAt_drop, buildArpReply, Mac.ofBytes_toBytes, Ip4.ofBytes_toBytes]
  have e1 : enc16 arpHwEthernet = [0, 1] := by decide
  have e2 : enc16 arpProtoIpv4 = [8, 0] := by decide
  have e3 : enc16 arpOpReply = [0, 2] := by decide
  have e4 : enc16 ethertypeArp = [8, 6] := by decide
  simp [ethernetOf, encodeEthernet, encodeArp, arpReplyMessage, e1, e2, e3, e4, arpHwLen, arpProtoLen, arpOpRequest]

theorem replyIpv4_short {c : Registers} {f : Bytes} (p : Config.Params) (h : f.length < 34) :
    replyIpv4 p c (ethernetOf f) = .error (.formatError .ip4TooShort) := by
  unfold replyIpv4
  rw [ethernetOf_payload]
  simp only [parseIpv4]
  rw [if_pos (by simp; omega)]

theorem parseIpv4_of_frame {f : Bytes} (h : 34 ≤ f.length) : parseIpv4 (ethernetOf f).payload = .ok (ipv4Of f) := by
  rw [ethernetOf_payload]
  simp only [parseIpv4]
  rw [if_neg (by simp; omega)]
  simp only [byteAt_drop, be16_drop, ip4At_drop]
  rfl

/-- R189, R190: the address, then the protocol. -/
theorem replyIpv4_by_protocol {c : Registers} {f : Bytes} (p : Config.Params) (h : 34 ≤ f.length) :
    replyIpv4 p c (ethernetOf f) =
      if ip4At f 30 ≠ c.ip then .ok (none, 0#1)
      else if byteAt f 23 = 1#8 then replyIcmp p c (ethernetOf f) (ipv4Of f) (f.drop 34)
      else if byteAt f 23 = 17#8 then replyUdp p c (ethernetOf f) (ipv4Of f) (f.drop 34)
      else if byteAt f 23 = 6#8 then replyTcp p c (ethernetOf f) (ipv4Of f) (f.drop 34)
      else .ok (none, 0#1) := by
  unfold replyIpv4
  rw [parseIpv4_of_frame h]
  simp only [ethernetOf, List.drop_drop]
  rfl

theorem replyIcmp_short {p : Config.Params} {c : Registers} {eth : EthernetFrame} {ip : Ipv4Header} {f : Bytes}
    (h : f.length < 42) : replyIcmp p c eth ip (f.drop 34) = .error (.formatError .icmpTooShort) := by
  unfold replyIcmp parseIcmp
  rw [if_pos (by simp; omega)]

/-- R191. -/
theorem replyIcmp_by_type {p : Config.Params} {c : Registers} {eth : EthernetFrame} {ip : Ipv4Header} {f : Bytes}
    (h : 42 ≤ f.length) :
    replyIcmp p c eth ip (f.drop 34) =
      if byteAt f 34 ≠ 8#8 then .ok (none, 0#1)
      else .ok (some (ipReplyFrame p c eth ip
        (encodeIcmp { type := 0#8, code := 0#8, checksum := 0#16, id := be16 f 38, seq := be16 f 40,
                      data := f.drop 42 })), 0#1) := by
  unfold replyIcmp parseIcmp
  rw [if_neg (by simp; omega)]
  simp only [byteAt_drop, be16_drop, List.drop_drop]
  rfl

theorem replyUdp_short {p : Config.Params} {c : Registers} {eth : EthernetFrame} {ip : Ipv4Header} {f : Bytes}
    (h : f.length < 42) : replyUdp p c eth ip (f.drop 34) = .error (.formatError .udpTooShort) := by
  unfold replyUdp parseUdp
  rw [if_pos (by simp; omega)]

/-- R192. -/
theorem replyUdp_echo {p : Config.Params} {c : Registers} {eth : EthernetFrame} {ip : Ipv4Header} {f : Bytes}
    (h : 42 ≤ f.length) :
    replyUdp p c eth ip (f.drop 34) =
      .ok (some (ipReplyFrame p c eth ip
        (encodeUdp { srcPort := be16 f 36, dstPort := be16 f 34, length := 0#16, checksum := 0#16, data := f.drop 42 }
          c.ip ip.src)), 0#1) := by
  unfold replyUdp parseUdp
  rw [if_neg (by simp; omega)]
  simp only [be16_drop, List.drop_drop]

theorem tcpDataOffset_of_frame (f : Bytes) : tcpDataOffset (f.drop 34) = (byteAt f 46).toNat / 16 := by
  have := (byteAt f 46).isLt
  rw [tcpDataOffset, byteAt_drop, bitField_eq]
  change (byteAt f 46).toNat / _ % _ = _
  omega

theorem replyTcp_short {p : Config.Params} {c : Registers} {eth : EthernetFrame} {ip : Ipv4Header} {f : Bytes}
    (h : f.length < 54) : replyTcp p c eth ip (f.drop 34) = .error (.formatError .tcpTooShort) := by
  unfold replyTcp parseTcp
  rw [if_pos (by simp; omega)]

theorem replyTcp_exceeds {p : Config.Params} {c : Registers} {eth : EthernetFrame} {ip : Ipv4Header} {f : Bytes}
    (h : 54 ≤ f.length) (ho : f.length - 34 < 4 * ((byteAt f 46).toNat / 16)) :
    replyTcp p c eth ip (f.drop 34) = .error (.formatError .tcpHeaderExceedsBuffer) := by
  unfold replyTcp parseTcp
  rw [if_neg (by simp; omega), if_pos (by rw [tcpDataOffset_of_frame]; simp; omega)]

/-- R193, R194. -/
theorem replyTcp_by_reaction {p : Config.Params} {c : Registers} {eth : EthernetFrame} {ip : Ipv4Header} {f : Bytes}
    (h : 54 ≤ f.length) (ho : 4 * ((byteAt f 46).toNat / 16) ≤ f.length - 34) :
    replyTcp p c eth ip (f.drop 34) =
      match tcpReaction c (tcpOf f) with
      | (some (fl, sq), est) =>
        .ok (some (ipReplyFrame p c eth ip (tcpReplySegment p c (tcpOf f) fl sq (be32 f 38 + 1#32) ip)), est)
      | (none, est) => .ok (none, est) := by
  unfold replyTcp parseTcp
  rw [if_neg (by simp; omega), if_neg (by rw [tcpDataOffset_of_frame]; simp; omega), tcpDataOffset_of_frame]
  simp only [byteAt_drop, be16_drop, be32_drop, List.drop_drop]
  rfl

theorem hasFlag_syn_of_frame (f : Bytes) : hasFlag (tcpOf f).flags tcpSyn = (byteAt f 47).getLsbD 1 := by
  show hasFlag (BitVec.ofNat 6 (bitField (byteAt f 47).toNat 5 0)) tcpSyn = _
  generalize byteAt f 47 = x; revert x; decide

theorem hasFlag_fin_of_frame (f : Bytes) : hasFlag (tcpOf f).flags tcpFin = (byteAt f 47).getLsbD 0 := by
  show hasFlag (BitVec.ofNat 6 (bitField (byteAt f 47).toNat 5 0)) tcpFin = _
  generalize byteAt f 47 = x; revert x; decide

theorem hasFlag_ack_of_frame (f : Bytes) : hasFlag (tcpOf f).flags tcpAck = (byteAt f 47).getLsbD 4 := by
  show hasFlag (BitVec.ofNat 6 (bitField (byteAt f 47).toNat 5 0)) tcpAck = _
  generalize byteAt f 47 = x; revert x; decide

end Sys2Proof.Machine
end

