-- ==== Sys2Proof/Tests/Slice0.lean ====
section
/-! SUPPORT. Tests: one operation each on a small state, expected results from 95_test_vectors.md (the vector is named at each);
the decoding of selectors written out from 30_encoding.md R61; the refusal of ill-formed operations; and, for each statement with
hypotheses, a state and operands that meet them together. -/

namespace Sys2Proof.Tests

open Sys2Proof Sys2Proof.Machine

/-- The response an outcome returned, none for a refusal. -/
def answer (o : Host.Outcome State Fault Refusal) : Option Response :=
  match o with
  | .next t => t.responses.getLast?
  | .fault _ => none
  | .refused _ => none

/-- The refusal of an outcome. -/
def refusal (o : Host.Outcome State Fault Refusal) : Option Refusal :=
  match o with
  | .refused r => some r
  | .next _ => none
  | .fault _ => none

/-- A property of the next state of an outcome. -/
def nextSatisfies (o : Host.Outcome State Fault Refusal) (p : State → Bool) : Bool :=
  match o with
  | .next t => p t
  | .fault _ => false
  | .refused _ => false

/-- `BB:BB:BB:BB:BB:BB` -/
def macB : Mac := ⟨0xbb, 0xbb, 0xbb, 0xbb, 0xbb, 0xbb⟩
/-- `AA:AA:AA:AA:AA:AA` -/
def macA : Mac := ⟨0xaa, 0xaa, 0xaa, 0xaa, 0xaa, 0xaa⟩
/-- `10.0.0.1` -/
def ip1 : Ip4 := ⟨10, 0, 0, 1⟩
/-- `10.0.0.5` -/
def ip5 : Ip4 := ⟨10, 0, 0, 5⟩

/-- The configuration and parameters of 95_test_vectors.md: mac BB:BB:BB:BB:BB:BB, ip 10.0.0.1, port 80, defaults of R10. -/
def configured : State := { State.reset with cfg := { mac := macB, ip := ip1, port := 80, v := 1 } }

/-- The same engine, presented with these events. -/
def presented (s : State) (events : List HostEvent) : State := { s with inbox := events }

/-- `zeros(n)` (R13). -/
def zeros (n : Nat) : Bytes := List.replicate n 0

/-- The ARP request record of V30. -/
def arpV30 : ArpMessage := ⟨1, 0x0800, 6, 4, 1, macA, ip5, zeroMac, ip1⟩

/-- The IPv4 header record of V41. -/
def ip4V41 : Ipv4Header := ⟨4, 5, 0, 115, 0, 2, 0, 64, 17, 0, ⟨192, 168, 0, 1⟩, ⟨192, 168, 0, 199⟩⟩

/-- The IPv4 header record of V42. -/
def ip4V42 : Ipv4Header := ⟨6, 6, 0x10, 40, 0xbeef, 5, 0x1abc, 1, 99, 0x7777, ⟨1, 2, 3, 4⟩, ⟨5, 6, 7, 8⟩⟩

/-- V8: the sum 0x1ffff folds twice. -/
theorem test_csum_two_passes : 
    answer (exec (Instr.csum [0xff, 0xff, 0xff, 0xff, 0x00, 0x01]) State.reset)
      = some (.ok (.u16 0xfffe)) := by decide

/-- V1, V9: the empty sequence, and an odd length. -/
theorem test_csum_odd_and_empty : 
    checksum [] = 0xffff ∧ checksum [0x01, 0x02, 0x03] = 0xfbfd := by decide

/-- V23: a VLAN tag is an "other" EtherType. -/
theorem test_ethParse_vlan_is_other : 
    answer (exec (Instr.ethParse [0x01, 0x02, 0x03, 0x04, 0x05, 0x06, 0x07, 0x08, 0x09, 0x0a, 0x0b, 0x0c, 0x81, 0x00, 0x00, 0x05, 0x08, 0x00]) State.reset)
      = some (.ok (.ethernetFrame ⟨⟨1, 2, 3, 4, 5, 6⟩, ⟨7, 8, 9, 10, 11, 12⟩, 0x8100, [0, 5, 8, 0]⟩)) := by decide

/-- S3. -/
theorem test_ethParse_too_short : 
    answer (exec (Instr.ethParse (zeros 13)) State.reset)
      = some (.error (.formatError .ethTooShort)) := by decide

/-- V20. -/
theorem test_ethEnc_vector : 
    answer (exec (Instr.ethEnc ⟨macA, macB, 0x0800, [1, 2]⟩) State.reset)
      = some (.ok (.bytes [0xaa, 0xaa, 0xaa, 0xaa, 0xaa, 0xaa, 0xbb, 0xbb, 0xbb, 0xbb, 0xbb, 0xbb, 0x08, 0x00, 0x01, 0x02])) := by decide

/-- V32: bytes after the 28th are ignored. -/
theorem test_arpParse_padded : 
    answer (exec (Instr.arpParse ([0x00, 0x01, 0x08, 0x00, 0x06, 0x04, 0x00, 0x01, 0xaa, 0xaa, 0xaa, 0xaa, 0xaa, 0xaa, 0x0a, 0x00, 0x00, 0x05, 0x00, 0x00, 0x00, 0x00, 0x00, 0x00, 0x0a, 0x00, 0x00, 0x01] ++ zeros 18)) State.reset)
      = some (.ok (.arpMessage arpV30)) := by decide

/-- S3. -/
theorem test_arpParse_too_short : 
    answer (exec (Instr.arpParse (zeros 27)) State.reset)
      = some (.error (.formatError .arpTooShort)) := by decide

/-- V33: unrecognised values are written as held. -/
theorem test_arpEnc_as_held : 
    answer (exec (Instr.arpEnc ⟨0x1234, 0x5678, 9, 10, 0xabcd, ⟨1, 2, 3, 4, 5, 6⟩, ⟨7, 8, 9, 10⟩, ⟨11, 12, 13, 14, 15, 16⟩, ⟨17, 18, 19, 20⟩⟩) State.reset)
      = some (.ok (.bytes [0x12, 0x34, 0x56, 0x78, 0x09, 0x0a, 0xab, 0xcd, 0x01, 0x02, 0x03, 0x04, 0x05, 0x06, 0x07, 0x08, 0x09, 0x0a, 0x0b, 0x0c, 0x0d, 0x0e, 0x0f, 0x10, 0x11, 0x12, 0x13, 0x14])) := by decide

/-- S4. -/
theorem test_arpReply_vector : 
    answer (exec (Instr.arpReply arpV30 [0xbb, 0xbb, 0xbb, 0xbb, 0xbb, 0xbb] [10, 0, 0, 1]) State.reset)
      = some (.ok (.bytes [0x00, 0x01, 0x08, 0x00, 0x06, 0x04, 0x00, 0x02, 0xbb, 0xbb, 0xbb, 0xbb, 0xbb, 0xbb, 0x0a, 0x00, 0x00, 0x01, 0xaa, 0xaa, 0xaa, 0xaa, 0xaa, 0xaa, 0x0a, 0x00, 0x00, 0x05])) := by decide

/-- V35, V36. -/
theorem test_arpReply_bad_lengths : 
    (answer (exec (.arpReply arpV30 [1, 2, 3, 4, 5] [10, 0, 0, 1]) State.reset)
      = some (.error (.validationError .invalidAddressLength)))
    ∧ (answer (exec (.arpReply arpV30 [1, 2, 3, 4, 5, 6] [10, 0, 0, 1, 0]) State.reset)
      = some (.error (.validationError .invalidAddressLength))) := by decide

/-- V40. -/
theorem test_ip4Parse_vector : 
    answer (exec (Instr.ip4Parse [0x45, 0x00, 0x00, 0x73, 0x00, 0x00, 0x40, 0x00, 0x40, 0x11, 0xb8, 0x61, 0xc0, 0xa8, 0x00, 0x01, 0xc0, 0xa8, 0x00, 0xc7]) State.reset)
      = some (.ok (.ipv4Header { ip4V41 with checksum := 0xb861 })) := by decide

/-- S3. -/
theorem test_ip4Parse_too_short : 
    answer (exec (Instr.ip4Parse (zeros 19)) State.reset)
      = some (.error (.formatError .ip4TooShort)) := by decide

/-- V42: byte 0, flags and offset from the record, the record's checksum ignored. -/
theorem test_ip4Enc_from_the_record : 
    answer (exec (Instr.ip4Enc ip4V42) State.reset)
      = some (.ok (.bytes [0x66, 0x10, 0x00, 0x28, 0xbe, 0xef, 0xba, 0xbc, 0x01, 0x63, 0x0e, 0xa4, 0x01, 0x02, 0x03, 0x04, 0x05, 0x06, 0x07, 0x08])) := by decide

/-- V51. -/
theorem test_icmpParse_vector : 
    answer (exec (Instr.icmpParse [0x08, 0x00, 0x19, 0x25, 0x00, 0x07, 0x00, 0x03, 0x70, 0x69, 0x6e, 0x67]) State.reset)
      = some (.ok (.icmpMessage ⟨8, 0, 0x1925, 7, 3, [0x70, 0x69, 0x6e, 0x67]⟩)) := by decide

/-- S3. -/
theorem test_icmpParse_too_short : 
    answer (exec (Instr.icmpParse (zeros 7)) State.reset)
      = some (.error (.formatError .icmpTooShort)) := by decide

/-- V53: the pad is not emitted. -/
theorem test_icmpEnc_odd_length : 
    answer (exec (Instr.icmpEnc ⟨8, 0, 0, 1, 1, [0x61, 0x62, 0x63]⟩) State.reset)
      = some (.ok (.bytes [0x08, 0x00, 0x33, 0x9b, 0x00, 0x01, 0x00, 0x01, 0x61, 0x62, 0x63])) := by decide

/-- V65: a length beyond the buffer is no error and trims nothing. -/
theorem test_udpParse_length_not_checked : 
    answer (exec (Instr.udpParse [0x9c, 0x40, 0x00, 0x07, 0xff, 0xff, 0x00, 0x00, 0x68, 0x65, 0x6c, 0x6c, 0x6f]) State.reset)
      = some (.ok (.udpMessage ⟨40000, 7, 65535, 0, [0x68, 0x65, 0x6c, 0x6c, 0x6f]⟩)) := by decide

/-- S3. -/
theorem test_udpParse_too_short : 
    answer (exec (Instr.udpParse (zeros 7)) State.reset)
      = some (.error (.formatError .udpTooShort)) := by decide

/-- S5: a computed checksum of zero is sent as 0xFFFF. -/
theorem test_udpEnc_zero_remap : 
    answer (exec (Instr.udpEnc ⟨7, 40000, 0, 0, [0x4f, 0x8d]⟩ ip1 ip5) State.reset)
      = some (.ok (.bytes [0x00, 0x07, 0x9c, 0x40, 0x00, 0x0a, 0xff, 0xff, 0x4f, 0x8d])) := by decide

/-- V62: the record's length 999 is ignored. -/
theorem test_udpEnc_true_length : 
    answer (exec (Instr.udpEnc ⟨1, 2, 999, 0x1234, []⟩ ip1 ip5) State.reset)
      = some (.ok (.bytes [0x00, 0x01, 0x00, 0x02, 0x00, 0x08, 0xeb, 0xd5])) := by decide

/-- V77: reserved bits dropped, an offset below 5 is no failure. -/
theorem test_tcpParse_low_offset : 
    answer (exec (Instr.tcpParse [0x00, 0x01, 0x00, 0x02, 0x00, 0x00, 0x00, 0x03, 0x00, 0x00, 0x00, 0x04, 0x0f, 0xd0, 0x00, 0x05, 0x9b, 0xc0, 0x00, 0x00]) State.reset)
      = some (.ok (.tcpMessage ⟨1, 2, 3, 4, 0, 0x10, 5, 0x9bc0, 0, [0x00, 0x01, 0x00, 0x02, 0x00, 0x00, 0x00, 0x03, 0x00, 0x00, 0x00, 0x04, 0x0f, 0xd0, 0x00, 0x05, 0x9b, 0xc0, 0x00, 0x00]⟩)) := by decide

/-- V74 to V76: options skipped; the header longer than the buffer; too short. -/
theorem test_tcpParse_failures : 
    let b : Bytes := [0x30, 0x39, 0x00, 0x50, 0x00, 0x00, 0x01, 0xf4, 0x00, 0x00, 0x00, 0x00, 0x60, 0x02, 0x04, 0x00, 0x4d, 0xa4, 0x00, 0x00, 0x02, 0x04, 0x05, 0xb4]
    (answer (exec (.tcpParse b) State.reset) = some (.ok (.tcpMessage ⟨12345, 80, 500, 0, 6, 2, 1024, 0x4da4, 0, []⟩)))
    ∧ (answer (exec (.tcpParse (b.take 23)) State.reset) = some (.error (.formatError .tcpHeaderExceedsBuffer)))
    ∧ (answer (exec (.tcpParse (b.take 19)) State.reset) = some (.error (.formatError .tcpTooShort))) := by decide

/-- V73. -/
theorem test_tcpEnc_with_data : 
    answer (exec (Instr.tcpEnc ⟨1, 2, 0x01020304, 0x05060708, 5, 0x18, 0x1000, 0, 0, [0x68, 0x65, 0x6c, 0x6c, 0x6f]⟩ ip1 ip5) State.reset)
      = some (.ok (.bytes [0x00, 0x01, 0x00, 0x02, 0x01, 0x02, 0x03, 0x04, 0x05, 0x06, 0x07, 0x08, 0x50, 0x18, 0x10, 0x00, 0x37, 0xd9, 0x00, 0x00, 0x68, 0x65, 0x6c, 0x6c, 0x6f])) := by decide

/-- V72, V78: an unset offset becomes 5, another is written as held. -/
theorem test_tcpEnc_offset_as_held : 
    (answer (exec (.tcpEnc ⟨80, 12345, 1000, 501, 0, 0x12, 65535, 0, 0, []⟩ ip1 ip5) State.reset)
      = some (.ok (.bytes [0x00, 0x50, 0x30, 0x39, 0x00, 0x00, 0x03, 0xe8, 0x00, 0x00, 0x01, 0xf5, 0x50, 0x12, 0xff, 0xff, 0x65, 0x67, 0x00, 0x00])))
    ∧ (answer (exec (.tcpEnc ⟨1, 2, 0, 0, 7, 0x10, 0, 0, 0, []⟩ ip1 ip5) State.reset)
      = some (.ok (.bytes [0x00, 0x01, 0x00, 0x02, 0x00, 0x00, 0x00, 0x00, 0x00, 0x00, 0x00, 0x00, 0x70, 0x10, 0x00, 0x00, 0x7b, 0xcc, 0x00, 0x00]))) := by decide

/-- V80, S7, V92, V95 to V98, V101: ARP, ICMP, UDP; TCP rules 2, 4, 3 before 4, 1 before 2, and the wrap of seq + 1. -/
theorem test_reply_frames : 
    (answer (exec (.reply [0xff, 0xff, 0xff, 0xff, 0xff, 0xff, 0xaa, 0xaa, 0xaa, 0xaa, 0xaa, 0xaa, 0x08, 0x06, 0x00, 0x01, 0x08, 0x00, 0x06, 0x04, 0x00, 0x01, 0xaa, 0xaa, 0xaa, 0xaa, 0xaa, 0xaa, 0x0a, 0x00, 0x00, 0x05, 0x00, 0x00, 0x00, 0x00, 0x00, 0x00, 0x0a, 0x00, 0x00, 0x01]) configured)
      = some (.ok (.reply (some [0xaa, 0xaa, 0xaa, 0xaa, 0xaa, 0xaa, 0xbb, 0xbb, 0xbb, 0xbb, 0xbb, 0xbb, 0x08, 0x06, 0x00, 0x01, 0x08, 0x00, 0x06, 0x04, 0x00, 0x02, 0xbb, 0xbb, 0xbb, 0xbb, 0xbb, 0xbb, 0x0a, 0x00, 0x00, 0x01, 0xaa, 0xaa, 0xaa, 0xaa, 0xaa, 0xaa, 0x0a, 0x00, 0x00, 0x05]) 0)))
    ∧ (answer (exec (.reply [0xbb, 0xbb, 0xbb, 0xbb, 0xbb, 0xbb, 0xaa, 0xaa, 0xaa, 0xaa, 0xaa, 0xaa, 0x08, 0x00, 0x45, 0x00, 0x00, 0x20, 0x12, 0x34, 0x40, 0x00, 0x40, 0x01, 0x14, 0xa4, 0x0a, 0x00, 0x00, 0x05, 0x0a, 0x00, 0x00, 0x01, 0x08, 0x00, 0x19, 0x25, 0x00, 0x07, 0x00, 0x03, 0x70, 0x69, 0x6e, 0x67]) configured)
      = some (.ok (.reply (some [0xaa, 0xaa, 0xaa, 0xaa, 0xaa, 0xaa, 0xbb, 0xbb, 0xbb, 0xbb, 0xbb, 0xbb, 0x08, 0x00, 0x45, 0x00, 0x00, 0x20, 0x00, 0x00, 0x00, 0x00, 0x40, 0x01, 0x66, 0xd8, 0x0a, 0x00, 0x00, 0x01, 0x0a, 0x00, 0x00, 0x05, 0x00, 0x00, 0x21, 0x25, 0x00, 0x07, 0x00, 0x03, 0x70, 0x69, 0x6e, 0x67]) 0)))
    ∧ (answer (exec (.reply [0xbb, 0xbb, 0xbb, 0xbb, 0xbb, 0xbb, 0xaa, 0xaa, 0xaa, 0xaa, 0xaa, 0xaa, 0x08, 0x00, 0x45, 0x00, 0x00, 0x21, 0x00, 0x01, 0x00, 0x00, 0x40, 0x11, 0x66, 0xc6, 0x0a, 0x00, 0x00, 0x05, 0x0a, 0x00, 0x00, 0x01, 0x9c, 0x40, 0x00, 0x07, 0x00, 0x0d, 0x0b, 0xb5, 0x68, 0x65, 0x6c, 0x6c, 0x6f]) configured)
      = some (.ok (.reply (some [0xaa, 0xaa, 0xaa, 0xaa, 0xaa, 0xaa, 0xbb, 0xbb, 0xbb, 0xbb, 0xbb, 0xbb, 0x08, 0x00, 0x45, 0x00, 0x00, 0x21, 0x00, 0x00, 0x00, 0x00, 0x40, 0x11, 0x66, 0xc7, 0x0a, 0x00, 0x00, 0x01, 0x0a, 0x00, 0x00, 0x05, 0x00, 0x07, 0x9c, 0x40, 0x00, 0x0d, 0x0b, 0xb5, 0x68, 0x65, 0x6c, 0x6c, 0x6f]) 0)))
    ∧ (answer (exec (.reply [0xbb, 0xbb, 0xbb, 0xbb, 0xbb, 0xbb, 0xaa, 0xaa, 0xaa, 0xaa, 0xaa, 0xaa, 0x08, 0x00, 0x45, 0x00, 0x00, 0x28, 0x00, 0x02, 0x40, 0x00, 0x40, 0x06, 0x26, 0xc9, 0x0a, 0x00, 0x00, 0x05, 0x0a, 0x00, 0x00, 0x01, 0x30, 0x39, 0x00, 0x50, 0x00, 0x00, 0x01, 0xf4, 0x00, 0x00, 0x00, 0x00, 0x50, 0x02, 0x04, 0x00, 0x65, 0x60, 0x00, 0x00]) configured)
      = some (.ok (.reply (some [0xaa, 0xaa, 0xaa, 0xaa, 0xaa, 0xaa, 0xbb, 0xbb, 0xbb, 0xbb, 0xbb, 0xbb, 0x08, 0x00, 0x45, 0x00, 0x00, 0x28, 0x00, 0x00, 0x00, 0x00, 0x40, 0x06, 0x66, 0xcb, 0x0a, 0x00, 0x00, 0x01, 0x0a, 0x00, 0x00, 0x05, 0x00, 0x50, 0x30, 0x39, 0x00, 0x00, 0x03, 0xe8, 0x00, 0x00, 0x01, 0xf5, 0x50, 0x12, 0xff, 0xff, 0x65, 0x67, 0x00, 0x00]) 0)))
    ∧ (answer (exec (.reply [0xbb, 0xbb, 0xbb, 0xbb, 0xbb, 0xbb, 0xaa, 0xaa, 0xaa, 0xaa, 0xaa, 0xaa, 0x08, 0x00, 0x45, 0x00, 0x00, 0x28, 0x00, 0x02, 0x40, 0x00, 0x40, 0x06, 0x26, 0xc9, 0x0a, 0x00, 0x00, 0x05, 0x0a, 0x00, 0x00, 0x01, 0x30, 0x39, 0x00, 0x50, 0x00, 0x00, 0x01, 0xf5, 0x00, 0x00, 0x03, 0xe9, 0x50, 0x10, 0x04, 0x00, 0x61, 0x68, 0x00, 0x00]) configured)
      = some (.ok (.reply none 1)))
    ∧ (answer (exec (.reply [0xbb, 0xbb, 0xbb, 0xbb, 0xbb, 0xbb, 0xaa, 0xaa, 0xaa, 0xaa, 0xaa, 0xaa, 0x08, 0x00, 0x45, 0x00, 0x00, 0x28, 0x00, 0x02, 0x40, 0x00, 0x40, 0x06, 0x26, 0xc9, 0x0a, 0x00, 0x00, 0x05, 0x0a, 0x00, 0x00, 0x01, 0x30, 0x39, 0x00, 0x50, 0x00, 0x00, 0x01, 0xf5, 0x00, 0x00, 0x03, 0xe9, 0x50, 0x11, 0x04, 0x00, 0x61, 0x67, 0x00, 0x00]) configured)
      = some (.ok (.reply (some [0xaa, 0xaa, 0xaa, 0xaa, 0xaa, 0xaa, 0xbb, 0xbb, 0xbb, 0xbb, 0xbb, 0xbb, 0x08, 0x00, 0x45, 0x00, 0x00, 0x28, 0x00, 0x00, 0x00, 0x00, 0x40, 0x06, 0x66, 0xcb, 0x0a, 0x00, 0x00, 0x01, 0x0a, 0x00, 0x00, 0x05, 0x00, 0x50, 0x30, 0x39, 0x00, 0x00, 0x03, 0xe9, 0x00, 0x00, 0x01, 0xf6, 0x50, 0x11, 0xff, 0xff, 0x65, 0x66, 0x00, 0x00]) 0)))
    ∧ (answer (exec (.reply [0xbb, 0xbb, 0xbb, 0xbb, 0xbb, 0xbb, 0xaa, 0xaa, 0xaa, 0xaa, 0xaa, 0xaa, 0x08, 0x00, 0x45, 0x00, 0x00, 0x28, 0x00, 0x02, 0x40, 0x00, 0x40, 0x06, 0x26, 0xc9, 0x0a, 0x00, 0x00, 0x05, 0x0a, 0x00, 0x00, 0x01, 0x30, 0x39, 0x00, 0x51, 0x00, 0x00, 0x01, 0xf4, 0x00, 0x00, 0x00, 0x00, 0x50, 0x02, 0x04, 0x00, 0x65, 0x5f, 0x00, 0x00]) configured)
      = some (.ok (.reply (some [0xaa, 0xaa, 0xaa, 0xaa, 0xaa, 0xaa, 0xbb, 0xbb, 0xbb, 0xbb, 0xbb, 0xbb, 0x08, 0x00, 0x45, 0x00, 0x00, 0x28, 0x00, 0x00, 0x00, 0x00, 0x40, 0x06, 0x66, 0xcb, 0x0a, 0x00, 0x00, 0x01, 0x0a, 0x00, 0x00, 0x05, 0x00, 0x51, 0x30, 0x39, 0x00, 0x00, 0x00, 0x00, 0x00, 0x00, 0x01, 0xf5, 0x50, 0x14, 0xff, 0xff, 0x69, 0x4c, 0x00, 0x00]) 0)))
    ∧ (answer (exec (.reply [0xbb, 0xbb, 0xbb, 0xbb, 0xbb, 0xbb, 0xaa, 0xaa, 0xaa, 0xaa, 0xaa, 0xaa, 0x08, 0x00, 0x45, 0x00, 0x00, 0x28, 0x00, 0x02, 0x40, 0x00, 0x40, 0x06, 0x26, 0xc9, 0x0a, 0x00, 0x00, 0x05, 0x0a, 0x00, 0x00, 0x01, 0x30, 0x39, 0x00, 0x50, 0xff, 0xff, 0xff, 0xff, 0x00, 0x00, 0x00, 0x00, 0x50, 0x02, 0x04, 0x00, 0x67, 0x54, 0x00, 0x00]) configured)
      = some (.ok (.reply (some [0xaa, 0xaa, 0xaa, 0xaa, 0xaa, 0xaa, 0xbb, 0xbb, 0xbb, 0xbb, 0xbb, 0xbb, 0x08, 0x00, 0x45, 0x00, 0x00, 0x28, 0x00, 0x00, 0x00, 0x00, 0x40, 0x06, 0x66, 0xcb, 0x0a, 0x00, 0x00, 0x01, 0x0a, 0x00, 0x00, 0x05, 0x00, 0x50, 0x30, 0x39, 0x00, 0x00, 0x03, 0xe8, 0x00, 0x00, 0x00, 0x00, 0x50, 0x12, 0xff, 0xff, 0x67, 0x5c, 0x00, 0x00]) 0))) := by decide

/-- V109, V91, V128, V120, V122 to V124, V127: another host, options not skipped, unconfigured, and each length error. -/
theorem test_reply_no_frame : 
    (answer (exec (.reply [0xbb, 0xbb, 0xbb, 0xbb, 0xbb, 0xbb, 0xaa, 0xaa, 0xaa, 0xaa, 0xaa, 0xaa, 0x08, 0x00, 0x45, 0x00, 0x00, 0x17, 0x00, 0x02, 0x40, 0x00, 0x40, 0x01, 0x00, 0x00, 0x0a, 0x00, 0x00, 0x05, 0x0a, 0x00, 0x00, 0x02, 0x08, 0x00, 0x19]) configured)
      = some (.ok (.reply none 0)))
    ∧ (answer (exec (.reply [0xbb, 0xbb, 0xbb, 0xbb, 0xbb, 0xbb, 0xaa, 0xaa, 0xaa, 0xaa, 0xaa, 0xaa, 0x08, 0x00, 0x46, 0x00, 0x00, 0x24, 0x00, 0x02, 0x40, 0x00, 0x40, 0x01, 0x25, 0xd2, 0x0a, 0x00, 0x00, 0x05, 0x0a, 0x00, 0x00, 0x01, 0x01, 0x01, 0x01, 0x01, 0x08, 0x00, 0x19, 0x25, 0x00, 0x07, 0x00, 0x03, 0x70, 0x69, 0x6e, 0x67]) configured)
      = some (.ok (.reply none 0)))
    ∧ (answer (exec (.reply [0xbb, 0xbb, 0xbb, 0xbb, 0xbb, 0xbb, 0xaa, 0xaa, 0xaa, 0xaa, 0xaa, 0xaa, 0x08, 0x00, 0x45, 0x00, 0x00, 0x20, 0x12, 0x34, 0x40, 0x00, 0x40, 0x01, 0x14, 0xa4, 0x0a, 0x00, 0x00, 0x05, 0x0a, 0x00, 0x00, 0x01, 0x08, 0x00, 0x19, 0x25, 0x00, 0x07, 0x00, 0x03, 0x70, 0x69, 0x6e, 0x67]) State.reset) = some (.error .notConfigured))
    ∧ (answer (exec (.reply (zeros 13)) configured) = some (.error (.formatError .ethTooShort)))
    ∧ (answer (exec (.reply ([0xbb, 0xbb, 0xbb, 0xbb, 0xbb, 0xbb, 0xaa, 0xaa, 0xaa, 0xaa, 0xaa, 0xaa, 0x08, 0x06] ++ zeros 27)) configured) = some (.error (.formatError .arpTooShort)))
    ∧ (answer (exec (.reply ([0xbb, 0xbb, 0xbb, 0xbb, 0xbb, 0xbb, 0xaa, 0xaa, 0xaa, 0xaa, 0xaa, 0xaa, 0x08, 0x00] ++ zeros 19)) configured) = some (.error (.formatError .ip4TooShort)))
    ∧ (answer (exec (.reply ([0xbb, 0xbb, 0xbb, 0xbb, 0xbb, 0xbb, 0xaa, 0xaa, 0xaa, 0xaa, 0xaa, 0xaa, 0x08, 0x00, 0x45, 0x00, 0x00, 0x20, 0x12, 0x34, 0x40, 0x00, 0x40, 0x01, 0x14, 0xa4, 0x0a, 0x00, 0x00, 0x05, 0x0a, 0x00, 0x00, 0x01, 0x08, 0x00, 0x19, 0x25, 0x00, 0x07, 0x00, 0x03, 0x70, 0x69, 0x6e, 0x67].take 41)) configured) = some (.error (.formatError .icmpTooShort)))
    ∧ (answer (exec (.reply ([0xbb, 0xbb, 0xbb, 0xbb, 0xbb, 0xbb, 0xaa, 0xaa, 0xaa, 0xaa, 0xaa, 0xaa, 0x08, 0x00, 0x45, 0x00, 0x00, 0x28, 0x00, 0x02, 0x40, 0x00, 0x40, 0x06, 0x26, 0xc9, 0x0a, 0x00, 0x00, 0x05, 0x0a, 0x00, 0x00, 0x01, 0x30, 0x39, 0x00, 0x50, 0x00, 0x00, 0x01, 0xf4, 0x00, 0x00, 0x00, 0x00, 0x50, 0x02, 0x04, 0x00, 0x65, 0x60, 0x00, 0x00].set 46 0x60)) configured)
      = some (.error (.formatError .tcpHeaderExceedsBuffer))) := by decide

/-- V132: the four registers, the response, nothing pending touched. -/
theorem test_cfgSet_writes_all : 
    nextSatisfies (exec (.cfgSet macB ip1 80) State.reset) (fun t =>
      decide (t.cfg = { mac := macB, ip := ip1, port := 80, v := 1 } ∧ t.responses = [.ok .nothing])) = true := by decide

/-- R24: byte 0 of the address is bits 47:40 and 31:24. -/
theorem test_cfgSet_bits : 
    (Mac.toBits ⟨1, 2, 3, 4, 5, 6⟩ = 0x010203040506#48) ∧ (Ip4.toBits ⟨10, 0, 0, 1⟩ = 0x0a000001#32) := by decide

/-- R61: a word of each family, its selector written out bit by bit. -/
theorem test_decode_selectors : 
    (decode ⟨0b00000000#8, [.bytes [1]]⟩ = .ok (.csum [1]))
    ∧ (decode ⟨0b00000001#8, [.bytes [1]]⟩ = .ok (.ethParse [1]))
    ∧ (decode ⟨0b00000010#8, [.ethernetFrame ⟨macA, macB, 1, []⟩]⟩ = .ok (.ethEnc ⟨macA, macB, 1, []⟩))
    ∧ (decode ⟨0b00000011#8, [.bytes [1]]⟩ = .ok (.arpParse [1]))
    ∧ (decode ⟨0b00000100#8, [.arpMessage arpV30]⟩ = .ok (.arpEnc arpV30))
    ∧ (decode ⟨0b00000101#8, [.arpMessage arpV30, .bytes [1], .bytes [2]]⟩ = .ok (.arpReply arpV30 [1] [2]))
    ∧ (decode ⟨0b00000110#8, [.bytes [1]]⟩ = .ok (.ip4Parse [1]))
    ∧ (decode ⟨0b00000111#8, [.ipv4Header ip4V41]⟩ = .ok (.ip4Enc ip4V41)) := by decide

/-- R61: the other families. -/
theorem test_decode_selectors_high : 
    let u : UdpMessage := ⟨1, 2, 3, 4, []⟩
    let t : TcpMessage := ⟨1, 2, 3, 4, 5, 6, 7, 8, 9, []⟩
    (decode ⟨0b00001000#8, [.bytes [1]]⟩ = .ok (.icmpParse [1]))
    ∧ (decode ⟨0b00001001#8, [.icmpMessage ⟨1, 2, 3, 4, 5, []⟩]⟩ = .ok (.icmpEnc ⟨1, 2, 3, 4, 5, []⟩))
    ∧ (decode ⟨0b00001010#8, [.bytes [1]]⟩ = .ok (.udpParse [1]))
    ∧ (decode ⟨0b00001011#8, [.udpMessage u, .ip4 ip1, .ip4 ip5]⟩ = .ok (.udpEnc u ip1 ip5))
    ∧ (decode ⟨0b00001100#8, [.bytes [1]]⟩ = .ok (.tcpParse [1]))
    ∧ (decode ⟨0b00001101#8, [.tcpMessage t, .ip4 ip1, .ip4 ip5]⟩ = .ok (.tcpEnc t ip1 ip5))
    ∧ (decode ⟨0b00001110#8, [.bytes [1]]⟩ = .ok (.reply [1]))
    ∧ (decode ⟨0b00001111#8, [.mac macB, .ip4 ip1, .u16 80]⟩ = .ok (.cfgSet macB ip1 80)) := by decide

/-- V130, V131: reserved selectors; and operands that are not the row's. -/
theorem test_decode_rejects : 
    (decode ⟨0x10#8, []⟩ = .error (.illegalOp 0x10)) ∧ (decode ⟨0xff#8, [.bytes []]⟩ = .error (.illegalOp 0xff))
    ∧ (decode ⟨0x00#8, []⟩ = .error (.malformedOperands .csum)) := by decide

/-- Each row of spec/opcode_table.json decodes, and runs as the first request after reset. -/
theorem test_table_words : 
    ((List.range 16).all fun w => (decodeTableWord 8 w).isSome
      && (answer (step (State.reset.withFetchWord 8 w))).isSome) = true := by decide

/-- V130, P6 step 2: IllegalOp, and the state is as it was. -/
theorem test_reserved_selector_runs : 
    decodeTableWord 8 0x10 = none
    ∧ nextSatisfies (step (State.reset.withFetchWord 8 0x10)) (fun t =>
        decide (t.responses = [.error .illegalOp] ∧ t.inbox = [] ∧ t.cfg.v = 0)) = true := by decide

/-- R270: reset clears CFG_V and returns nothing. -/
theorem test_step_reset_event : 
    nextSatisfies (step (presented configured [.reset])) (fun t =>
      decide (t.cfg.v = 0 ∧ t.responses = [] ∧ t.inbox = [] ∧ t.params = configured.params)) = true := by decide

/-- Operands that are not the selector's row's have no meaning (log 4). -/
theorem test_step_malformed_refused : 
    refusal (step (presented configured [.request ⟨0x0E#8, [.u16 1]⟩])) = some .malformedOperands := by decide

/-- R41: for each check, an operation one byte beyond MAXLEN, which the check refuses. -/
theorem test_illformed_refused : 
    let p := { Config.defaultParams with maxLen := 60 }
    let z := zeros 61
    ((Instr.csum z).wellFormed p = false) ∧ ((Instr.ethParse z).wellFormed p = false)
    ∧ ((Instr.ethEnc ⟨macA, macB, 0, zeros 47⟩).wellFormed p = false) ∧ ((Instr.arpParse z).wellFormed p = false)
    ∧ ((Instr.arpReply arpV30 z []).wellFormed p = false) ∧ ((Instr.arpReply arpV30 [] z).wellFormed p = false)
    ∧ ((Instr.ip4Parse z).wellFormed p = false) ∧ ((Instr.icmpParse z).wellFormed p = false)
    ∧ ((Instr.icmpEnc ⟨0, 0, 0, 0, 0, zeros 53⟩).wellFormed p = false) ∧ ((Instr.udpParse z).wellFormed p = false)
    ∧ ((Instr.udpEnc ⟨0, 0, 0, 0, zeros 53⟩ ip1 ip5).wellFormed p = false) ∧ ((Instr.tcpParse z).wellFormed p = false)
    ∧ ((Instr.tcpEnc ⟨0, 0, 0, 0, 0, 0, 0, 0, 0, zeros 41⟩ ip1 ip5).wellFormed p = false)
    ∧ ((Instr.reply z).wellFormed p = false) := by decide

/-- R41: and one exactly at MAXLEN, which it accepts. -/
theorem test_wellformed_at_the_bound : 
    let p := { Config.defaultParams with maxLen := 60 }
    ((Instr.csum (zeros 60)).wellFormed p = true) ∧ ((Instr.ethEnc ⟨macA, macB, 0, zeros 46⟩).wellFormed p = true)
    ∧ ((Instr.udpEnc ⟨0, 0, 0, 0, zeros 52⟩ ip1 ip5).wellFormed p = true)
    ∧ ((Instr.tcpEnc ⟨0, 0, 0, 0, 0, 0, 0, 0, 0, zeros 40⟩ ip1 ip5).wellFormed p = true) := by decide

/-- R41: "it refuses the request". -/
theorem test_beyond_maxlen_refused : 
    refusal (exec (.csum (zeros 55)) { State.reset with params := { Config.defaultParams with maxLen := 54 } })
      = some .beyondMaxLen := by decide


/-- R83, R104: `VERIFY` of the 20 bytes of S3, whose checksum is right, and of the same with one byte changed. -/
theorem test_pseudo_verify :
    let b : Bytes := [0x45, 0x00, 0x00, 0x73, 0x00, 0x00, 0x40, 0x00, 0x40, 0x11, 0xb8, 0x61, 0xc0, 0xa8, 0x00, 0x01, 0xc0, 0xa8,
      0x00, 0xc7]
    answer (exec (PseudoOp.verify b).expand State.reset) = some (.ok (.u16 0))
    ∧ answer (exec (PseudoOp.verify (b.set 1 1)).expand State.reset) ≠ some (.ok (.u16 0)) := by decide

/-- R75: the three EtherTypes, and a VLAN tag, which is none of them. -/
theorem test_ethertypes :
    isIpv4 0x0800 = true ∧ isArp 0x0806 = true ∧ isIpv6 0x86DD = true
    ∧ (isIpv4 0x8100 || isArp 0x8100 || isIpv6 0x8100) = false
    ∧ isArpRequest arpV30 = true ∧ isArpReply arpV30 = false := by decide

/-! ### Witnesses: for each statement with hypotheses, values that meet all of them together, one for each clause -/

/-- The ARP request of V80: who has 10.0.0.1, from 10.0.0.5. -/
def arpFrame : Bytes :=
  [0xff, 0xff, 0xff, 0xff, 0xff, 0xff, 0xaa, 0xaa, 0xaa, 0xaa, 0xaa, 0xaa, 0x08, 0x06, 0x00, 0x01, 0x08, 0x00, 0x06, 0x04, 0x00,
    0x01, 0xaa, 0xaa, 0xaa, 0xaa, 0xaa, 0xaa, 0x0a, 0x00, 0x00, 0x05, 0x00, 0x00, 0x00, 0x00, 0x00, 0x00, 0x0a, 0x00, 0x00, 0x01]

/-- An IPv4 frame from 10.0.0.5 with this protocol, destination and transport segment. -/
def ipv4Frame (proto : Byte) (dst : Ip4) (segment : Bytes) : Bytes :=
  [0xbb, 0xbb, 0xbb, 0xbb, 0xbb, 0xbb, 0xaa, 0xaa, 0xaa, 0xaa, 0xaa, 0xaa, 0x08, 0x00, 0x45, 0x00, 0x00, 0x28, 0x00, 0x02, 0x40,
    0x00, 0x40, proto, 0x00, 0x00, 0x0a, 0x00, 0x00, 0x05] ++ dst.toBytes ++ segment

/-- A 20-byte TCP segment with this destination port, acknowledgment number, byte 12 and flags. -/
def tcpSegment (port : BitVec 16) (ack : BitVec 32) (offsetByte flagByte : Byte) : Bytes :=
  [0x30, 0x39] ++ enc16 port ++ [0x00, 0x00, 0x01, 0xf4] ++ enc32 ack ++ [offsetByte, flagByte, 0x04, 0x00, 0, 0, 0, 0]

/-- A segment of the connection's own port with these flags and acknowledgment 1001, in a frame for the local address. -/
def tcpFrame (flagByte : Byte) : Bytes := ipv4Frame 6 ip1 (tcpSegment 80 1001 0x50 flagByte)

/-- What every statement about `REPLY` on a configured engine assumes of the state and the frame. -/
abbrev Accepts (s : State) (frame : Bytes) : Prop := s.cfg.v = 1#1 ∧ frame.length ≤ s.params.maxLen

theorem test_witness_ReservedSelectorIsIllegalOp :
    0x10 ≤ (0x10#8).toNat ∧ (presented configured [.request ⟨0x10, []⟩]).inbox = .request ⟨0x10, []⟩ :: []
    ∧ 0x10 ≤ (0xff#8).toNat ∧ (presented configured [.request ⟨0xff, []⟩, .reset]).inbox = .request ⟨0xff, []⟩ :: [.reset] := by
  decide

theorem test_witness_StepRunsDecodedRequest :
    (presented configured [.request (encode (.csum [1]))]).inbox = .request (encode (.csum [1])) :: []
    ∧ decode (encode (.csum [1])) = .ok (.csum [1]) := by decide

theorem test_witness_StepWithNoEventChangesNothing : configured.inbox = [] := by decide

theorem test_witness_EveryOperationInDomainAnswers :
    (Instr.csum (zeros 54)).wellFormed { configured.params with maxLen := 54 } = true
    ∧ (Instr.cfgSet macB ip1 80).wellFormed configured.params = true := by decide

theorem test_witness_OnlyTheTabledErrors :
    let r : Response := .error (.formatError .ethTooShort)
    exec (.ethParse []) configured = .next { configured with responses := configured.responses ++ [r] } := rfl

theorem test_witness_ErrorsChangeNoState :
    let r : Response := .error .notConfigured
    let s := { configured with cfg := { configured.cfg with v := 0 } }
    exec (.reply []) s = .next { s with responses := s.responses ++ [r] } := rfl

theorem test_witness_OnlyCfgSetWritesRegisters :
    (∃ t, exec (.arpEnc arpV30) configured = .next t) ∧ (∃ t, exec (.cfgSet macA ip5 1) configured = .next t)
    ∧ configured.cfg.v = 1#1 := ⟨⟨_, rfl⟩, ⟨_, rfl⟩, rfl⟩

theorem test_witness_OnlyResetClearsCfgV :
    (∃ t, step configured = .next t) ∧ configured.cfg.v = 1#1 ∧ ∀ rest, configured.inbox ≠ .reset :: rest :=
  ⟨⟨_, rfl⟩, rfl, by intro rest; simp [configured, State.reset]⟩

theorem test_witness_StepKeepsReturnedWithinMaxLen :
    let s := { configured with responses := [.ok (.bytes (zeros 54))] }
    s.Inv ∧ ∃ t, step s = .next t :=
  ⟨⟨by decide, by decide⟩, ⟨_, rfl⟩⟩

theorem test_witness_ResetEventUnconfigures :
    (presented configured [.reset]).inbox = .reset :: [] ∧ arpFrame.length ≤ configured.params.maxLen := by decide

theorem test_witness_CodecResponsesNeedOnlyOperands :
    (∀ frame, Instr.csum [1] ≠ .reply frame) ∧ (∀ mac ip port, Instr.csum [1] ≠ .cfgSet mac ip port)
    ∧ (Instr.csum [1]).wellFormed configured.params = true := by
  refine ⟨?_, ?_, by decide⟩ <;> simp

theorem test_witness_ReplyIsStateless :
    arpFrame.length ≤ configured.params.maxLen
    ∧ arpFrame.length ≤ State.reset.params.maxLen ∧ State.reset.cfg.v = 0#1 := by decide

theorem test_witness_HistoryHasNoInfluence :
    let t := { presented configured [.reset] with responses := [.error .illegalOp] }
    configured.SameEngine t ∧ configured ≠ t ∧ ∃ s', exec (.arpEnc arpV30) configured = .next s' :=
  ⟨⟨rfl, rfl⟩, by simp [configured, presented, State.reset], ⟨_, rfl⟩⟩

theorem test_witness_OnlyCfgSetIsSeenLater :
    (∃ s', exec (.ethParse []) configured = .next s') ∧ (∀ mac ip port, Instr.ethParse [] ≠ .cfgSet mac ip port)
    ∧ ∃ u, exec (.cfgSet macA ip5 1) configured = .next u := ⟨⟨_, rfl⟩, by simp, ⟨_, rfl⟩⟩

theorem test_witness_CfgSetSeenByLaterReplyOnly :
    arpFrame.length ≤ configured.params.maxLen
    ∧ (presented configured [.request (encode (.cfgSet macA ip5 1)), .request (encode (.reply arpFrame))]).inbox
      = .request (encode (.cfgSet macA ip5 1)) :: .request (encode (.reply arpFrame)) :: []
    ∧ (presented configured [.request (encode (.reply arpFrame)), .request (encode (.cfgSet macA ip5 1))]).inbox
      = .request (encode (.reply arpFrame)) :: .request (encode (.cfgSet macA ip5 1)) :: [] := by decide

theorem test_witness_WordSumPairsFromIndexZero : ([1, 2, 3] : Bytes).length % 2 = 1 := by decide

theorem test_witness_FoldClosedForm : 0 < 0xFFFF ∧ 0 < 0x10000 := by decide

theorem test_witness_CsumComplementsFoldedSum :
    (zeros 60).length ≤ State.reset.params.maxLen ∧ ([] : Bytes).length ≤ State.reset.params.maxLen
    ∧ ([7] : Bytes) = [7] ∧ (∀ x ∈ zeros 3, x = 0#8)
    ∧ ([0x00, 0x01, 0xf2, 0x03, 0xf4, 0xf5, 0xf6, 0xf7] : Bytes).length ≤ State.reset.params.maxLen :=
  ⟨by decide, by decide, rfl, by decide, by decide⟩

theorem test_witness_ChecksumVerificationLaw :
    (let b : Bytes := [1, 2, 0, 0]
     2 % 2 = 0 ∧ 2 + 2 ≤ b.length ∧ b.getD 2 0 = 0#8 ∧ b.getD (2 + 1) 0 = 0#8)
    ∧ let z : Bytes := [0, 0, 0xff, 0xff]
      0 + 2 ≤ z.length ∧ z.getD 0 0 = 0#8 ∧ z.getD (0 + 1) 0 = 0#8 ∧ checksum z = 0#16 := by decide

theorem test_witness_ChecksumFacts :
    ([1, 2] : Bytes).length % 2 = 0 ∧ ([] : Bytes).length % 2 = 0 ∧ ([1] : Bytes).length % 2 = 1 := by decide

/-- EthParseFields, ArpParseFields, Ip4ParseFields, and IcmpParseFields with UdpParseFields: a sequence at each parser's length
bound and one a byte below. -/
theorem test_witness_ParseFields :
    (14 ≤ (zeros 14).length ∧ (zeros 14).length ≤ State.reset.params.maxLen ∧ (zeros 13).length < 14)
    ∧ (28 ≤ (zeros 28).length ∧ (zeros 28).length ≤ State.reset.params.maxLen ∧ (zeros 27).length < 28)
    ∧ (20 ≤ (zeros 20).length ∧ (zeros 20).length ≤ State.reset.params.maxLen ∧ (zeros 19).length < 20)
    ∧ (8 ≤ (zeros 8).length ∧ (zeros 8).length ≤ State.reset.params.maxLen ∧ (zeros 7).length < 8) := by decide

theorem test_witness_TcpParseFields :
    let b := tcpSegment 80 0 0x50 0x02
    (b.take 19).length < 20
    ∧ (20 ≤ b.length ∧ (b.set 12 0x60).length < 4 * (((b.set 12 0x60).getD 12 0).toNat / 16))
    ∧ (4 * ((b.getD 12 0).toNat / 16) ≤ b.length ∧ b.length ≤ State.reset.params.maxLen) := by decide

/-- EthEncBytes, IcmpEncBytes with UdpEncBytes, TcpEncBytes: data that fills `MAXLEN`, on an engine with the least `MAXLEN`. -/
theorem test_witness_EncBytes :
    let s := { State.reset with params := { Config.defaultParams with maxLen := 54 } }
    s.params.Valid ∧ 14 + (zeros 40).length ≤ s.params.maxLen ∧ 8 + (zeros 46).length ≤ s.params.maxLen
    ∧ 20 + (zeros 34).length ≤ s.params.maxLen := by decide

theorem test_witness_ArpReplyBytes :
    (macA.toBytes.length = 6 ∧ ip5.toBytes.length = 4)
    ∧ ((zeros 5).length ≠ 6 ∨ ip5.toBytes.length ≠ 4) ∧ (macA.toBytes.length ≠ 6 ∨ (zeros 5).length ≠ 4)
    ∧ macA.toBytes.length ≤ State.reset.params.maxLen ∧ (zeros 5).length ≤ State.reset.params.maxLen := by decide

theorem test_witness_ArpReplyAddressing :
    State.reset.params.Valid ∧ macA.toBytes.length = 6 ∧ ip5.toBytes.length = 4 := by decide

theorem test_witness_EthernetRoundTrip :
    14 + (zeros 4).length ≤ State.reset.params.maxLen ∧ 14 ≤ arpFrame.length
    ∧ arpFrame.length ≤ State.reset.params.maxLen := by decide

theorem test_witness_ArpRoundTrip :
    State.reset.params.Valid ∧ 28 ≤ (zeros 29).length ∧ (zeros 29).length ≤ State.reset.params.maxLen := by decide

/-- The second clause with a header whose checksum is the right one, the 20 bytes of S3. -/
theorem test_witness_Ipv4RoundTrip :
    let b : Bytes := [0x45, 0x00, 0x00, 0x73, 0x00, 0x00, 0x40, 0x00, 0x40, 0x11, 0xb8, 0x61, 0xc0, 0xa8, 0x00, 0x01, 0xc0, 0xa8,
      0x00, 0xc7]
    State.reset.params.Valid ∧ 20 ≤ b.length ∧ b.length ≤ State.reset.params.maxLen
    ∧ be16 b 10 = checksum (patch16 (b.take 20) 10 0#16) := by decide

theorem test_witness_IcmpRoundTrip :
    let b : Bytes := [8, 0, 0xf7, 0xff, 0, 0, 0, 0]
    8 + (zeros 4).length ≤ State.reset.params.maxLen ∧ 8 ≤ b.length ∧ b.length ≤ State.reset.params.maxLen
    ∧ be16 b 2 = checksum (patch16 b 2 0#16) := by decide

theorem test_witness_UdpRoundTrip :
    State.reset.params.Valid ∧ 8 + (zeros 4).length ≤ State.reset.params.maxLen := by decide

/-- A data offset of 5, an unset one, one past the segment, and one below 5. -/
theorem test_witness_TcpRoundTrip :
    State.reset.params.Valid ∧ 20 + (zeros 0).length ≤ State.reset.params.maxLen
    ∧ (5#4 = 5#4 ∨ 5#4 = 0#4) ∧ (0#4 = 5#4 ∨ 0#4 = 0#4)
    ∧ (6#4 ≠ 5#4 ∧ 6#4 ≠ 0#4 ∧ 20 + (zeros 0).length < 4 * (6#4).toNat)
    ∧ (4#4 ≠ 5#4 ∧ 4#4 ≠ 0#4 ∧ 4 * (4#4).toNat ≤ 20 + (zeros 0).length) := by decide

theorem test_witness_EncodedChecksumsVerify :
    8 + (zeros 5).length ≤ State.reset.params.maxLen ∧ 20 + (zeros 0).length ≤ State.reset.params.maxLen := by decide

theorem test_witness_ReplyAnswersArpRequest :
    Accepts configured arpFrame ∧ 42 ≤ arpFrame.length ∧ be16 arpFrame 12 = 0x0806#16 ∧ be16 arpFrame 20 = 1#16
    ∧ ip4At arpFrame 38 = configured.cfg.ip := by decide

theorem test_witness_ReplyEchoesIcmp :
    let f := ipv4Frame 1 ip1 [8, 3, 0, 0, 0, 7, 0, 3]
    Accepts configured f ∧ 42 ≤ f.length ∧ be16 f 12 = 0x0800#16 ∧ ip4At f 30 = configured.cfg.ip
    ∧ byteAt f 23 = 1#8 ∧ byteAt f 34 = 8#8 := by decide

theorem test_witness_ReplyEchoesUdp :
    let f := ipv4Frame 17 ip1 [0x9c, 0x40, 0, 7, 0, 8, 0, 0]
    Accepts configured f ∧ 42 ≤ f.length ∧ be16 f 12 = 0x0800#16 ∧ ip4At f 30 = configured.cfg.ip
    ∧ byteAt f 23 = 17#8 := by decide

/-- One frame for each of the five branches of the table. -/
theorem test_witness_ReplyFollowsTcpTable :
    ([ipv4Frame 6 ip1 (tcpSegment 81 0 0x50 0x02), tcpFrame 0x02, tcpFrame 0x01, tcpFrame 0x10, tcpFrame 0x08].all fun f =>
      decide (Accepts configured f ∧ 54 ≤ f.length ∧ be16 f 12 = 0x0800#16 ∧ ip4At f 30 = configured.cfg.ip
        ∧ byteAt f 23 = 6#8 ∧ 4 * ((byteAt f 46).toNat / 16) ≤ f.length - 34)) = true
    ∧ be16 (ipv4Frame 6 ip1 (tcpSegment 81 0 0x50 0x02)) 36 ≠ configured.cfg.port
    ∧ (byteAt (tcpFrame 0x02) 47).getLsbD 1 = true
    ∧ (byteAt (tcpFrame 0x01) 47).getLsbD 1 = false ∧ (byteAt (tcpFrame 0x01) 47).getLsbD 0 = true
    ∧ (byteAt (tcpFrame 0x10) 47).getLsbD 4 = true ∧ be32 (tcpFrame 0x10) 42 = 1001#32
    ∧ (byteAt (tcpFrame 0x08) 47).getLsbD 4 = false := by decide

/-- One frame for each of the five ways to be dropped, and both of the second. -/
theorem test_witness_ReplyDropsWithoutError :
    (let f := (zeros 14).set 12 0x86
     Accepts configured f ∧ 14 ≤ f.length ∧ be16 f 12 ≠ 0x0806#16 ∧ be16 f 12 ≠ 0x0800#16)
    ∧ (Accepts configured (arpFrame.set 21 2) ∧ be16 (arpFrame.set 21 2) 20 ≠ 1#16)
    ∧ (Accepts configured (arpFrame.set 41 2) ∧ ip4At (arpFrame.set 41 2) 38 ≠ configured.cfg.ip)
    ∧ (Accepts configured (ipv4Frame 1 ip5 []) ∧ 34 ≤ (ipv4Frame 1 ip5 []).length
      ∧ ip4At (ipv4Frame 1 ip5 []) 30 ≠ configured.cfg.ip)
    ∧ (Accepts configured (ipv4Frame 2 ip1 []) ∧ ip4At (ipv4Frame 2 ip1 []) 30 = configured.cfg.ip
      ∧ byteAt (ipv4Frame 2 ip1 []) 23 = 2#8)
    ∧ (Accepts configured (ipv4Frame 1 ip1 (zeros 8)) ∧ 42 ≤ (ipv4Frame 1 ip1 (zeros 8)).length
      ∧ byteAt (ipv4Frame 1 ip1 (zeros 8)) 34 ≠ 8#8) := by decide

/-- A frame at the boundary of each error: one byte short of each layer, and a data offset one word too long. -/
theorem test_witness_ReplyErrorsOutermostFirst :
    (Accepts configured (zeros 13) ∧ (zeros 13).length < 14)
    ∧ (Accepts configured (arpFrame.take 41) ∧ be16 (arpFrame.take 41) 12 = 0x0806#16 ∧ (arpFrame.take 41).length < 42)
    ∧ (Accepts configured ((ipv4Frame 1 ip1 []).take 33) ∧ ((ipv4Frame 1 ip1 []).take 33).length < 34)
    ∧ (Accepts configured (ipv4Frame 1 ip1 (zeros 7)) ∧ (ipv4Frame 1 ip1 (zeros 7)).length < 42)
    ∧ (Accepts configured (ipv4Frame 17 ip1 (zeros 7)) ∧ (ipv4Frame 17 ip1 (zeros 7)).length < 42)
    ∧ (Accepts configured (ipv4Frame 6 ip1 (zeros 19)) ∧ (ipv4Frame 6 ip1 (zeros 19)).length < 54)
    ∧ (let f := ipv4Frame 6 ip1 (tcpSegment 80 0 0x60 0x02)
       Accepts configured f ∧ 54 ≤ f.length ∧ f.length - 34 < 4 * ((byteAt f 46).toNat / 16)) := by decide

theorem test_witness_EstSignalsRuleFourOnly :
    Accepts configured (tcpFrame 0x10)
    ∧ answer (exec (.reply (tcpFrame 0x10)) configured) = some (.ok (.reply none 1)) := by decide

/-- Each kind of frame `REPLY` returns: ARP, ICMP and UDP at the least length and with data, TCP by each of its three rules. -/
theorem test_witness_ReplyNeverLongerThanRequest :
    ([arpFrame, ipv4Frame 1 ip1 [8, 0, 0, 0, 0, 7, 0, 3], ipv4Frame 1 ip1 [8, 3, 0, 0, 0, 7, 0, 3, 0x70],
        ipv4Frame 17 ip1 [0x9c, 0x40, 0, 7, 0, 8, 0, 0], ipv4Frame 17 ip1 [0x9c, 0x40, 0, 7, 0, 9, 0, 0, 0x68],
        ipv4Frame 6 ip1 (tcpSegment 81 0 0x50 0x02), tcpFrame 0x02, tcpFrame 0x11].all fun f =>
      nextSatisfies (exec (.reply f) configured) fun t =>
        match t.responses with
        | [.ok (.reply (some o) est)] => decide (t.responses = configured.responses ++ [.ok (.reply (some o) est)])
        | _ => false) = true := by decide

/-- Two Echo Requests that differ in the destination MAC, the header checksum, and the code. -/
theorem test_witness_ReplyIgnoresUntestedFields :
    let f := ipv4Frame 1 ip1 [8, 3, 0, 0, 0, 7, 0, 3]
    let f' := ((f.set 0 0xff).set 24 0x12).set 35 0
    f.length = f'.length ∧ be16 f 12 = 0x0800#16 ∧ f ≠ f'
    ∧ ∀ k, ¬ ReplyIgnores (byteAt f 23).toNat k → byteAt f k = byteAt f' k := by
  refine ⟨by decide, by decide, by decide, fun k hk => ?_⟩
  have h : k ≠ 0 ∧ k ≠ 24 ∧ k ≠ 35 := by
    refine ⟨?_, ?_, ?_⟩ <;> (rintro rfl; exact hk (by decide))
  unfold byteAt
  rw [List.getD_eq_getElem?_getD, List.getD_eq_getElem?_getD, List.getElem?_set_ne (by omega),
    List.getElem?_set_ne (by omega), List.getElem?_set_ne (by omega)]


end Sys2Proof.Tests
end

section

namespace Sys2Proof

/-- The default `MAXLEN`, 1514, is in the range 00_scope.md R10 gives it. -/
theorem Config.defaultParams_valid : Config.defaultParams.Valid := by decide

end Sys2Proof

namespace Sys2Proof.Machine

/-- Before the engine has returned anything, the invariant asks only that the parameters are in range. -/
theorem State.inv_of_responses_eq_nil {s : State} (hparams : s.params.Valid) (hnone : s.responses = []) :
    s.Inv where
  params_valid := hparams
  returned_within := by simp [hnone]

/-- Settles O15: the defaults are in range, and reset has returned nothing. -/
theorem resetIsWithinMaxLen : Obligations.ResetIsWithinMaxLen :=
  State.inv_of_responses_eq_nil Config.defaultParams_valid State.reset_responses

end Sys2Proof.Machine
end

section
/-! The engine's state (10_state.md): what an operation writes, what its response depends on, what a step and a reset leave. -/

namespace Sys2Proof.Machine

/-- 10_state.md R24, 48_config.md R230: the registers stay as they are, or `CFG.SET` writes all four together. -/
theorem registersAfter_cases (cfg : Registers) (i : Instr) :
    registersAfter cfg i = cfg
    ∨ ∃ mac ip port, i = .cfgSet mac ip port ∧ registersAfter cfg i = ⟨mac, ip, port, 1#1⟩ := by
  cases i with
  | cfgSet mac ip port => exact .inr ⟨mac, ip, port, rfl, rfl⟩
  | _ => exact .inl rfl

theorem registersAfter_of_ne_cfgSet {i : Instr} (cfg : Registers) (hset : ∀ mac ip port, i ≠ .cfgSet mac ip port) :
    registersAfter cfg i = cfg :=
  (registersAfter_cases cfg i).resolve_right fun ⟨mac, ip, port, hi, _⟩ => hset mac ip port hi

/-- No operation clears `CFG_V` (R24). -/
theorem registersAfter_keeps_v {cfg : Registers} (i : Instr) (hv : cfg.v = 1#1) : (registersAfter cfg i).v = 1#1 := by
  obtain hsame | ⟨_, _, _, -, hset⟩ := registersAfter_cases cfg i
  · rw [hsame, hv]
  · rw [hset]

/-- Only `REPLY` reads the registers or the parameters (10_state.md R24, R27). -/
theorem outcomeOf_of_ne_reply {i : Instr} (hreply : ∀ frame, i ≠ .reply frame) (p p' : Config.Params)
    (cfg cfg' : Registers) : outcomeOf p cfg i = outcomeOf p' cfg' i := by
  cases i with
  | reply frame => exact absurd rfl (hreply frame)
  | _ => rfl

/-- Settles O12: the next state of an operation differs in the responses and in the registers `registersAfter` gives. -/
theorem onlyCfgSetWritesRegisters : Obligations.OnlyCfgSetWritesRegisters := by
  intro i s t h
  obtain ⟨-, rfl⟩ := exec_next_inv h
  exact ⟨⟨_, rfl⟩, rfl, rfl, rfl, registersAfter_cases s.cfg i, registersAfter_keeps_v i⟩

/-- Settles O13, by what a step can do: of its four cases only the reset event writes `CFG_V` with 0. -/
theorem onlyResetClearsCfgV : Obligations.OnlyResetClearsCfgV := by
  intro s t h hv hreset
  obtain ⟨-, rfl⟩ | ⟨rest, hin, -⟩ | ⟨r, rest, op, -, -, rfl⟩ | ⟨r, rest, i, -, -, hexec⟩ := step_cases h
  · exact hv
  · exact absurd hin (hreset rest)
  · simpa using hv
  · obtain ⟨-, -, -, -, -, hkeeps⟩ := onlyCfgSetWritesRegisters i _ t hexec
    exact hkeeps hv

/-- Settles O18: a codec operation's outcome is the same under every configuration, so the one it has after reset serves. -/
theorem codecResponsesNeedOnlyOperands : Obligations.CodecResponsesNeedOnlyOperands := by
  intro i hreply hset
  refine ⟨responseOf (outcomeOf State.reset.params State.reset.cfg i), fun s hwf => ?_⟩
  exact exec_answers hwf (outcomeOf_of_ne_reply hreply ..) (registersAfter_of_ne_cfgSet s.cfg hset)

/-- Settles O20: the domain, the response and the registers written are functions of the registers and the parameters. -/
theorem historyHasNoInfluence : Obligations.HistoryHasNoInfluence := by
  intro s t s' i ⟨hcfg, hparams⟩ h
  obtain ⟨hwf, rfl⟩ := exec_next_inv h
  rw [hparams] at hwf
  refine ⟨_, responseOf (outcomeOf t.params t.cfg i), exec_next hwf, ⟨?_, hparams⟩, ?_, rfl⟩
  · exact congrArg (registersAfter · i) hcfg
  · rw [hcfg, hparams]

theorem step_of_decode_ok {s : State} {r : Request} {rest : List HostEvent} {i : Instr}
    (hin : s.inbox = .request r :: rest) (hdecode : decode r = .ok i) : step s = exec i (s.takeEvent rest) := by
  simp only [step_request hin, hdecode]

/-- Settles O4: `State.takeEvent` removes the request taken and nothing else. -/
theorem stepRunsDecodedRequest : Obligations.StepRunsDecodedRequest :=
  fun _ _ _ _ hin hdecode => step_of_decode_ok hin hdecode

/-- Settles O16: `CFG_V` is the register every reset clears; the rest is how `State.reset` is written. -/
theorem resetLeavesUnconfigured : Obligations.ResetLeavesUnconfigured :=
  ⟨resetRegisters_v 0, State.reset_inbox, State.reset_responses, rfl, rfl, rfl, rfl, rfl, rfl⟩

/-- Bits at or above the lowest byte of a concatenation are bits of what stands before that byte. -/
theorem extractLsb'_append_byte {w : Nat} (hi : BitVec w) (lo : Byte) (k : Nat) :
    (hi ++ lo).extractLsb' (k + 8) 8 = hi.extractLsb' k 8 :=
  BitVec.extractLsb'_append_eq_of_le (Nat.le_add_left 8 k)

/-- Settles O24: each extraction passes the bytes below its own, and then takes the lowest byte left. -/
theorem registerBitsInWireOrder : Obligations.RegisterBitsInWireOrder := by
  constructor
  · intro m
    unfold Mac.toBits
    repeat rw [extractLsb'_append_byte]
    simp only [BitVec.extractLsb'_append_eq_right, BitVec.extractLsb'_eq_self, and_self]
  · intro a
    unfold Ip4.toBits
    repeat rw [extractLsb'_append_byte]
    simp only [BitVec.extractLsb'_append_eq_right, BitVec.extractLsb'_eq_self, and_self]

end Sys2Proof.Machine
end

section
/-! The byte sequences that cross the interface (20_memory.md): what is refused, how long what is returned can be, and which
operation's effect a later operation sees. -/

namespace Sys2Proof.Machine

/-! ### Refusals (R41) -/

theorem exec_refused_iff (i : Instr) (s : State) (x : Refusal) :
    exec i s = .refused x ↔ x = .beyondMaxLen ∧ i.wellFormed s.params = false := by
  rw [exec_eq]
  cases i.wellFormed s.params <;> simp [eq_comm]

/-- Settles O8: `beyondMaxLen` is the only refusal of an operation. -/
theorem beyondMaxLenIsRefused : Obligations.BeyondMaxLenIsRefused := by
  intro i s
  simp [exec_refused_iff]

theorem answerUndecoded_refused_iff (e : DecodeError) (s : State) (x : Refusal) :
    answerUndecoded e s = .refused x ↔ x = .malformedOperands ∧ ∃ o, e = .malformedOperands o := by
  cases e <;> simp [answerUndecoded, eq_comm]

theorem step_refused_iff_of_request {s : State} {r : Request} {rest : List HostEvent}
    (hin : s.inbox = .request r :: rest) (x : Refusal) :
    step s = .refused x ↔
      (x = .malformedOperands ∧ ∃ o, decode r = .error (.malformedOperands o))
      ∨ (x = .beyondMaxLen ∧ ∃ i, decode r = .ok i ∧ i.wellFormed s.params = false) := by
  rw [step_request hin]
  cases decode r with
  | error e => simp [answerUndecoded_refused_iff]
  | ok i => simp [exec_refused_iff]

/-- Settles O6: a step with nothing pending or a reset pending answers, and there is no fault to answer
(60_exceptions.md R246). -/
theorem stepStopsOnlyOutsideTheDomain : Obligations.StepStopsOnlyOutsideTheDomain := by
  intro s
  refine ⟨nofun, fun x => ?_⟩
  match hin : s.inbox with
  | [] => simp [step_empty hin]
  | .reset :: rest => simp [step_reset hin]
  | .request r :: rest => simp [step_refused_iff_of_request hin]

/-! ### How long a reply is (R42) -/

/-- R42 of a reaction to a frame of `n` bytes: what it sends, if anything, is no longer than the frame, of one of the three
lengths, and comes with `est` 0. -/
def ReplyBounded (n : Nat) (reaction : Except EngineError (Option Bytes × BitVec 1)) : Prop :=
  ∀ o est, reaction = .ok (some o, est) →
    o.length ≤ n ∧ (o.length = 42 ∨ o.length = n ∨ o.length = 54) ∧ est = 0#1

@[simp] theorem replyBounded_error (n : Nat) (e : EngineError) : ReplyBounded n (.error e) := by
  simp [ReplyBounded]

@[simp] theorem replyBounded_none (n : Nat) (est : BitVec 1) : ReplyBounded n (.ok (none, est)) := by
  simp [ReplyBounded]

@[simp] theorem replyBounded_some_iff (n : Nat) (o : Bytes) (est : BitVec 1) :
    ReplyBounded n (.ok (some o, est)) ↔
      o.length ≤ n ∧ (o.length = 42 ∨ o.length = n ∨ o.length = 54) ∧ est = 0#1 := by
  simp [ReplyBounded]

/-- An ARP reply is 42 bytes, and its request is at least that. -/
theorem replyArp_bounded (c : Registers) (f : Bytes) : ReplyBounded f.length (replyArp c (ethernetOf f)) := by
  by_cases h : f.length < 42
  · simp [replyArp_short c h]
  · rw [replyArp_by_fields c (by omega)]
    split_ifs
    · simp
    · simp
    · simp; omega

/-- An Echo Reply carries its request's data, so it has its request's length. -/
theorem replyIcmp_bounded (p : Config.Params) (c : Registers) (eth : EthernetFrame) (ip : Ipv4Header) (f : Bytes) :
    ReplyBounded f.length (replyIcmp p c eth ip (f.drop 34)) := by
  by_cases h : f.length < 42
  · simp [replyIcmp_short h]
  · rw [replyIcmp_by_type (by omega)]
    split_ifs
    · simp
    · simp; omega

/-- A UDP echo carries its request's data, so it has its request's length. -/
theorem replyUdp_bounded (p : Config.Params) (c : Registers) (eth : EthernetFrame) (ip : Ipv4Header) (f : Bytes) :
    ReplyBounded f.length (replyUdp p c eth ip (f.drop 34)) := by
  by_cases h : f.length < 42
  · simp [replyUdp_short h]
  · rw [replyUdp_echo (by omega)]
    simp; omega

/-- 47_reply.md R195: a rule of the TCP table that sends a segment leaves `est` 0. -/
theorem tcpReaction_est_of_some {c : Registers} {m : TcpMessage} {x : BitVec 6 × BitVec 32} {est : BitVec 1}
    (h : tcpReaction c m = (some x, est)) : est = 0#1 := by
  unfold tcpReaction at h
  split_ifs at h <;> cases h <;> rfl

/-- A TCP reply is 54 bytes, and its request is at least that. -/
theorem replyTcp_bounded (p : Config.Params) (c : Registers) (eth : EthernetFrame) (ip : Ipv4Header) (f : Bytes) :
    ReplyBounded f.length (replyTcp p c eth ip (f.drop 34)) := by
  by_cases h : f.length < 54
  · simp [replyTcp_short h]
  by_cases ho : f.length - 34 < 4 * ((byteAt f 46).toNat / 16)
  · simp [replyTcp_exceeds (by omega) ho]
  · rw [replyTcp_by_reaction (by omega) (by omega)]
    rcases hr : tcpReaction c (tcpOf f) with ⟨_ | ⟨fl, sq⟩, est⟩
    · simp
    · simp [tcpReaction_est_of_some hr]; omega

theorem replyIpv4_bounded (p : Config.Params) (c : Registers) (f : Bytes) :
    ReplyBounded f.length (replyIpv4 p c (ethernetOf f)) := by
  by_cases h : f.length < 34
  · simp [replyIpv4_short p h]
  · rw [replyIpv4_by_protocol p (by omega)]
    split_ifs
    · simp
    · exact replyIcmp_bounded _ _ _ _ _
    · exact replyUdp_bounded _ _ _ _ _
    · exact replyTcp_bounded _ _ _ _ _
    · simp

theorem replyFrame_bounded (p : Config.Params) (c : Registers) (f : Bytes) :
    ReplyBounded f.length (replyFrame p c f) := by
  by_cases hv : c.v = 0#1
  · simp [replyFrame_unconfigured p f hv]
  have hv : c.v = 1#1 := (BitVec.eq_zero_or_eq_one c.v).resolve_left hv
  by_cases h : f.length < 14
  · simp [replyFrame_short p hv h]
  · rw [replyFrame_by_ethertype p hv (by omega)]
    split_ifs
    · exact replyArp_bounded _ _
    · exact replyIpv4_bounded _ _ _
    · simp

/-- The response of a `REPLY` that sends a frame is the reaction of the reply engine. -/
theorem replyFrame_of_response {p : Config.Params} {c : Registers} {f o : Bytes} {est : BitVec 1}
    (h : responseOf (outcomeOf p c (.reply f)) = .ok (.reply (some o) est)) :
    replyFrame p c f = .ok (some o, est) := by
  unfold outcomeOf at h
  cases hr : replyFrame p c f with
  | error e => simp [hr, Except.map] at h
  | ok r =>
    obtain ⟨out, est'⟩ := r
    simpa [hr, Except.map] using h

/-- Settles O59, by the bound of the reply engine, layer by layer. -/
theorem replyNeverLongerThanRequest : Obligations.ReplyNeverLongerThanRequest := by
  intro s t frame o est h hresp
  obtain ⟨-, rfl⟩ := exec_next_inv h
  exact replyFrame_bounded _ _ _ o est (replyFrame_of_response (by simpa using hresp))

/-! ### Everything returned is within `MAXLEN` (R41, R42) -/

/-- R41 of one response: each byte sequence it carries is at most `n` long. -/
def Response.Within (r : Response) (n : Nat) : Prop := ∀ b ∈ r.sequences, b.length ≤ n

theorem Response.within_of_sequences_nil {r : Response} {n : Nat} (h : r.sequences = []) : r.Within n := by
  simp [Response.Within, h]

theorem Response.within_of_sequences_singleton {r : Response} {b : Bytes} {n : Nat} (h : r.sequences = [b])
    (hb : b.length ≤ n) : r.Within n := by
  simpa [Response.Within, h] using hb

/-- An operation that may fail is within the bound when each of its results is: an error carries no bytes (R243). -/
theorem responseOf_map_within {α : Type} {x : Except EngineError α} {f : α → Result} {n : Nat}
    (h : ∀ a, x = .ok a → (Response.ok (f a)).Within n) : (responseOf (x.map f)).Within n := by
  cases x with
  | error e => exact Response.within_of_sequences_nil rfl
  | ok a => exact h a rfl

theorem parseEthernet_payload_length_le {b : Bytes} {f : EthernetFrame} (h : parseEthernet b = .ok f) :
    f.payload.length ≤ b.length := by
  unfold parseEthernet at h
  split_ifs at h
  cases h
  simp

theorem parseIcmp_data_length_le {b : Bytes} {m : IcmpMessage} (h : parseIcmp b = .ok m) :
    m.data.length ≤ b.length := by
  unfold parseIcmp at h
  split_ifs at h
  cases h
  simp

theorem parseUdp_data_length_le {b : Bytes} {m : UdpMessage} (h : parseUdp b = .ok m) :
    m.data.length ≤ b.length := by
  unfold parseUdp at h
  split_ifs at h
  cases h
  simp

theorem parseTcp_data_length_le {b : Bytes} {m : TcpMessage} (h : parseTcp b = .ok m) :
    m.data.length ≤ b.length := by
  unfold parseTcp at h
  split_ifs at h
  cases h
  simp

theorem buildArpReply_length {q : ArpMessage} {localMac localIpv4 b : Bytes}
    (h : buildArpReply q localMac localIpv4 = .ok b) : b.length = 28 := by
  unfold buildArpReply at h
  split at h
  · cases h; rfl
  · cases h

/-- A reply is within the bound of its request (R42). -/
theorem reply_within {p : Config.Params} {c : Registers} {frame : Bytes} {n : Nat} (hfits : frame.length ≤ n) :
    (responseOf ((replyFrame p c frame).map fun r => .reply r.1 r.2)).Within n := by
  refine responseOf_map_within fun (out, est) h => ?_
  cases out with
  | none => exact Response.within_of_sequences_nil rfl
  | some o =>
    obtain ⟨hle, -, -⟩ := replyFrame_bounded p c frame o est h
    exact Response.within_of_sequences_singleton rfl (hle.trans hfits)

/-- R41, R42: an operation inside the domain returns no byte sequence longer than `MAXLEN`. A parser's payload is part of its
operand, the domain bounds an encoding, and the encodings of fixed size are below every `MAXLEN` of R10. -/
theorem outcomeOf_within {p : Config.Params} {i : Instr} (c : Registers) (hp : p.Valid) (hwf : i.wellFormed p = true) :
    (responseOf (outcomeOf p c i)).Within p.maxLen := by
  obtain ⟨hmin, -⟩ := hp
  cases i with
  | csum b => exact Response.within_of_sequences_nil rfl
  | ethParse b =>
    exact responseOf_map_within fun f h => Response.within_of_sequences_singleton rfl
      ((parseEthernet_payload_length_le h).trans (of_decide_eq_true hwf))
  | ethEnc f =>
    exact Response.within_of_sequences_singleton rfl ((encodeEthernet_length f).le.trans (of_decide_eq_true hwf))
  | arpParse b => exact responseOf_map_within fun m _ => Response.within_of_sequences_nil rfl
  | arpEnc m => exact Response.within_of_sequences_singleton rfl ((encodeArp_length m).le.trans (by omega))
  | arpReply q localMac localIpv4 =>
    exact responseOf_map_within fun b h => Response.within_of_sequences_singleton rfl
      ((buildArpReply_length h).le.trans (by omega))
  | ip4Parse b => exact responseOf_map_within fun h _ => Response.within_of_sequences_nil rfl
  | ip4Enc h => exact Response.within_of_sequences_singleton rfl ((encodeIpv4_length h).le.trans (by omega))
  | icmpParse b =>
    exact responseOf_map_within fun m h => Response.within_of_sequences_singleton rfl
      ((parseIcmp_data_length_le h).trans (of_decide_eq_true hwf))
  | icmpEnc m =>
    exact Response.within_of_sequences_singleton rfl ((encodeIcmp_length m).le.trans (of_decide_eq_true hwf))
  | udpParse b =>
    exact responseOf_map_within fun m h => Response.within_of_sequences_singleton rfl
      ((parseUdp_data_length_le h).trans (of_decide_eq_true hwf))
  | udpEnc m srcIp dstIp =>
    exact Response.within_of_sequences_singleton rfl
      ((encodeUdp_length m srcIp dstIp).le.trans (of_decide_eq_true hwf))
  | tcpParse b =>
    exact responseOf_map_within fun m h => Response.within_of_sequences_singleton rfl
      ((parseTcp_data_length_le h).trans (of_decide_eq_true hwf))
  | tcpEnc m srcIp dstIp =>
    exact Response.within_of_sequences_singleton rfl
      ((encodeTcp_length m srcIp dstIp).le.trans (of_decide_eq_true hwf))
  | reply frame => exact reply_within (of_decide_eq_true hwf)
  | cfgSet mac ip port => exact Response.within_of_sequences_nil rfl

/-- Returning one more response keeps the invariant when that response is within `MAXLEN`, whatever is pending and whatever
the registers hold. -/
theorem State.Inv.of_response {s t : State} {r : Response} (hs : s.Inv) (hparams : t.params = s.params)
    (hresponses : t.responses = s.responses ++ [r]) (hr : r.Within s.params.maxLen) : t.Inv where
  params_valid := hparams ▸ hs.params_valid
  returned_within := by
    intro r' hr' b hb
    rw [hparams]
    rw [hresponses, List.mem_append, List.mem_singleton] at hr'
    obtain hold | rfl := hr'
    · exact hs.returned_within r' hold b hb
    · exact hr b hb

/-- Settles O14, by what a step can do: nothing is returned by an idle step or a reset, no bytes by `IllegalOp`, and an
operation returns within `MAXLEN` by `outcomeOf_within`. -/
theorem stepKeepsReturnedWithinMaxLen : Obligations.StepKeepsReturnedWithinMaxLen := by
  intro s t hs hstep
  obtain ⟨-, rfl⟩ | ⟨rest, -, rfl⟩ | ⟨r, rest, op, -, -, rfl⟩ | ⟨r, rest, i, -, -, hexec⟩ := step_cases hstep
  · exact hs
  · exact ⟨hs.params_valid, hs.returned_within⟩
  · exact hs.of_response rfl rfl (Response.within_of_sequences_nil rfl)
  · obtain ⟨hwf, rfl⟩ := exec_next_inv hexec
    exact hs.of_response rfl rfl (outcomeOf_within s.cfg hs.params_valid hwf)

/-! ### Which operation is seen by a later one (R53) -/

/-- Settles O21: an operation's answer is read from the parameters and the registers, and only `CFG.SET` writes those. -/
theorem onlyCfgSetIsSeenLater : Obligations.OnlyCfgSetIsSeenLater := by
  intro s s' u i j hi hset hj
  obtain ⟨-, rfl⟩ := exec_next_inv hi
  obtain ⟨hwf, rfl⟩ := exec_next_inv hj
  refine ⟨_, rfl, ?_⟩
  rw [registersAfter_of_ne_cfgSet s.cfg hset]
  exact exec_next hwf

/-- 30_encoding.md R61: each operation's selector selects its own row, which takes its operands. -/
@[simp] theorem decode_encode (i : Instr) : decode (encode i) = .ok i := by
  cases i <;> simp [decode, encode, Instr.selector, Instr.operands, assemble]

/-- A pending request for an operation inside the domain is answered by one step (10_state.md R20). -/
theorem step_encode {s : State} {i : Instr} {rest : List HostEvent} (hin : s.inbox = .request (encode i) :: rest)
    (hwf : i.wellFormed s.params = true) :
    step s = .next { s with
      cfg := registersAfter s.cfg i
      inbox := rest
      responses := s.responses ++ [responseOf (outcomeOf s.params s.cfg i)] } :=
  (step_of_decode_ok hin (decode_encode i)).trans (exec_next hwf)

/-- R53 (a), (b): two pending operations are two steps, the second under the registers the first leaves. -/
theorem step_step_encode {s : State} {i j : Instr} {rest : List HostEvent}
    (hin : s.inbox = .request (encode i) :: .request (encode j) :: rest)
    (hi : i.wellFormed s.params = true) (hj : j.wellFormed s.params = true) :
    ∃ t, step s = .next t ∧ step t = .next { s with
      cfg := registersAfter (registersAfter s.cfg i) j
      inbox := rest
      responses := s.responses ++ [responseOf (outcomeOf s.params s.cfg i),
        responseOf (outcomeOf s.params (registersAfter s.cfg i) j)] } := by
  refine ⟨_, step_encode hin hi, ?_⟩
  rw [step_encode rfl (by exact hj), List.append_assoc, List.singleton_append]

/-- Settles O23: `REPLY` is answered under the registers before it, and `CFG.SET` after it leaves that response. -/
theorem cfgSetSeenByLaterReplyOnly : Obligations.CfgSetSeenByLaterReplyOnly := by
  intro s mac ip port frame rest hfits
  have hreply : (Instr.reply frame).wellFormed s.params = true := decide_eq_true hfits
  constructor
  · intro hin
    obtain ⟨t, hfirst, hsecond⟩ := step_step_encode hin rfl hreply
    exact ⟨_, t, _, hfirst, hsecond, rfl, exec_next hreply⟩
  · intro hin
    obtain ⟨t, hfirst, hsecond⟩ := step_step_encode hin hreply rfl
    exact ⟨_, t, _, hfirst, hsecond, rfl, exec_next hreply⟩

end Sys2Proof.Machine
end

section
/-! The operation interface (30_encoding.md): which row of the table a selector names, which operation a request is. -/

namespace Sys2Proof.Machine

/-! ### Selectors (R61, R62) -/

/-- R61: "exact match on all eight bits". -/
theorem mask_eq_of_mem_operationTable : ∀ row ∈ operationTable, row.mask = 0xFF#8 := by
  decide

theorem operation_injective_on_operationTable :
    ∀ row ∈ operationTable, ∀ row' ∈ operationTable, row.operation = row'.operation → row = row' := by
  decide

/-- R61, R62: no row has a pattern among the reserved values. -/
theorem pattern_lt_of_mem_operationTable : ∀ row ∈ operationTable, row.pattern.toNat < 0x10 := by
  decide

theorem rowMatches_iff_of_mem_operationTable {row : TableRow} (hrow : row ∈ operationTable) (op : Byte) :
    rowMatches op row = true ↔ row.pattern = op := by
  have hmask : op &&& 0xFF#8 = op := BitVec.and_allOnes
  rw [rowMatches, mask_eq_of_mem_operationTable row hrow, hmask, beq_iff_eq, eq_comm]

/-- A selector that selects an operation is the pattern of a row of that operation. -/
theorem exists_row_of_selectOperation {op : Byte} {o : Operation} (h : selectOperation op = some o) :
    ∃ row ∈ operationTable, row.operation = o ∧ row.pattern = op := by
  obtain ⟨row, hfind, ho⟩ := Option.map_eq_some_iff.mp h
  have hrow : row ∈ operationTable := List.mem_of_find?_eq_some hfind
  exact ⟨row, hrow, ho, (rowMatches_iff_of_mem_operationTable hrow op).mp (List.find?_some hfind)⟩

/-- R62: the selectors from 0x10 to 0xFF are reserved. -/
theorem selectOperation_eq_none_of_reserved {op : Byte} (h : 0x10 ≤ op.toNat) : selectOperation op = none := by
  refine Option.eq_none_iff_forall_ne_some.mpr fun o hselect => ?_
  obtain ⟨row, hrow, -, rfl⟩ := exists_row_of_selectOperation hselect
  have := pattern_lt_of_mem_operationTable row hrow
  omega

/-- R61: no two selectors select one operation. -/
theorem selectOperation_some_injective {op op' : Byte} {o : Operation} (h : selectOperation op = some o)
    (h' : selectOperation op' = some o) : op = op' := by
  obtain ⟨row, hrow, ho, rfl⟩ := exists_row_of_selectOperation h
  obtain ⟨row', hrow', ho', rfl⟩ := exists_row_of_selectOperation h'
  rw [operation_injective_on_operationTable row hrow row' hrow' (ho.trans ho'.symm)]

/-! ### Requests (R60) -/

/-- What an operation is assembled from: the row its own selector selects, and exactly its own operands. -/
theorem assemble_eq_some {o : Operation} {operands : List Operand} {i : Instr} (h : assemble o operands = some i) :
    selectOperation i.selector = some o ∧ operands = i.operands := by
  unfold assemble at h
  split at h <;> cases h <;> simp [Instr.selector, Instr.operands]

theorem decode_eq_ok_iff (r : Request) (i : Instr) :
    decode r = .ok i ↔ ∃ o, selectOperation r.op = some o ∧ assemble o r.operands = some i := by
  unfold decode
  cases selectOperation r.op with
  | none => simp
  | some o => cases ha : assemble o r.operands <;> simp [ha]

/-- R62: decided "before any operand is looked at". -/
theorem decode_of_reserved {op : Byte} (h : 0x10 ≤ op.toNat) (operands : List Operand) :
    decode ⟨op, operands⟩ = .error (.illegalOp op) := by
  simp only [decode, selectOperation_eq_none_of_reserved h]

/-- No request but an operation's encoding decodes to it: only the operation's own selector selects its row, and the row takes only
the operation's own operands. -/
theorem eq_encode_of_decode {r : Request} {i : Instr} (h : decode r = .ok i) : r = encode i := by
  obtain ⟨o, hselect, hassemble⟩ := (decode_eq_ok_iff r i).mp h
  obtain ⟨hown, hoperands⟩ := assemble_eq_some hassemble
  exact congrArg₂ Request.mk (selectOperation_some_injective hselect hown) hoperands

/-- Settles O2, by `eq_encode_of_decode` and `decode_encode`. -/
theorem decodeInvertsEncode : Obligations.DecodeInvertsEncode :=
  fun _ i => ⟨eq_encode_of_decode, fun h => h ▸ decode_encode i⟩

/-- Settles O3: the decoder stops at the selector, so nothing but the response `IllegalOp` comes of the step. -/
theorem reservedSelectorIsIllegalOp : Obligations.ReservedSelectorIsIllegalOp := by
  intro s op operands rest hop hin
  have hdecode := decode_of_reserved hop operands
  refine ⟨?_, rfl, rfl, fun i => ?_⟩
  · rw [step_request hin, hdecode]
    rfl
  · simp [hdecode]

/-- Settles O1: each row's request is the encoding of its operation. -/
theorem selectorTableDecodes : Obligations.SelectorTableDecodes :=
  ⟨fun b => decode_encode (.csum b),
    fun b => decode_encode (.ethParse b),
    fun f => decode_encode (.ethEnc f),
    fun b => decode_encode (.arpParse b),
    fun m => decode_encode (.arpEnc m),
    fun q lm li => decode_encode (.arpReply q lm li),
    fun b => decode_encode (.ip4Parse b),
    fun h => decode_encode (.ip4Enc h),
    fun b => decode_encode (.icmpParse b),
    fun m => decode_encode (.icmpEnc m),
    fun b => decode_encode (.udpParse b),
    fun m a d => decode_encode (.udpEnc m a d),
    fun b => decode_encode (.tcpParse b),
    fun m a d => decode_encode (.tcpEnc m a d),
    fun frame => decode_encode (.reply frame),
    fun mac ip port => decode_encode (.cfgSet mac ip port)⟩

end Sys2Proof.Machine
end

section
/-! The checksum engine (40_checksum.md): the word sum by recursion and by index, the closed form of the fold, and the laws of
the checksum that follow from the two. -/

namespace Sys2Proof

/-! ### The word sum (R101) -/

@[simp] theorem wordSum_nil : wordSum [] = 0 := rfl

@[simp] theorem wordSum_singleton (x : Byte) : wordSum [x] = x.toNat * 256 := rfl

@[simp] theorem wordSum_cons_cons (x y : Byte) (rest : Bytes) :
    wordSum (x :: y :: rest) = x.toNat * 256 + y.toNat + wordSum rest := rfl

/-- R106 (c): an even front keeps the pairing of what follows it. -/
theorem wordSum_append {a : Bytes} (h : a.length % 2 = 0) (b : Bytes) : wordSum (a ++ b) = wordSum a + wordSum b := by
  induction a using wordSum.induct with
  | case1 => simp
  | case2 x => simp at h
  | case3 x y rest ih =>
    have heven : rest.length % 2 = 0 := by rwa [← Nat.add_mod_right]
    simp [ih heven, Nat.add_assoc]

/-- R106 (d), R101: a zero byte at the end is a word of its own that is 0, or the low byte an odd last byte is padded with. -/
@[simp] theorem wordSum_append_zero (b : Bytes) : wordSum (b ++ [0#8]) = wordSum b := by
  induction b using wordSum.induct with
  | case1 => rfl
  | case2 x => simp
  | case3 x y rest ih => simp [ih]

@[simp] theorem wordSum_append_replicate_zero (b : Bytes) (n : Nat) :
    wordSum (b ++ List.replicate n 0#8) = wordSum b := by
  induction n with
  | zero => simp
  | succ n ih => rw [List.replicate_succ', ← List.append_assoc, wordSum_append_zero, ih]

theorem toNat_eq_zero_iff {w : Nat} (x : BitVec w) : x.toNat = 0 ↔ x = 0#w := by
  rw [← BitVec.toNat_inj, BitVec.toNat_zero]

theorem wordSum_eq_zero_iff (b : Bytes) : wordSum b = 0 ↔ ∀ x ∈ b, x = 0#8 := by
  induction b using wordSum.induct with
  | case1 => simp
  | case2 x => simp [toNat_eq_zero_iff]
  | case3 x y rest ih => simp [ih, and_assoc, toNat_eq_zero_iff]

/-- The sum of R101, by index. -/
theorem wordSum_eq_sum_range (b : Bytes) : wordSum b =
    (∑ k ∈ Finset.range (b.length / 2), ((b.getD (2 * k) 0).toNat * 256 + (b.getD (2 * k + 1) 0).toNat))
      + (if b.length % 2 = 1 then (b.getD (b.length - 1) 0).toNat * 256 else 0) := by
  induction b using wordSum.induct with
  | case1 => simp
  | case2 x => simp
  | case3 x y rest ih =>
    have hlen : (x :: y :: rest).length = rest.length + 2 := rfl
    have hlast : (if rest.length % 2 = 1 then ((x :: y :: rest).getD (rest.length + 2 - 1) 0).toNat * 256 else 0)
        = if rest.length % 2 = 1 then (rest.getD (rest.length - 1) 0).toNat * 256 else 0 := by
      split
      next hodd =>
        rw [show rest.length + 2 - 1 = rest.length - 1 + 1 + 1 by omega, List.getD_cons_succ, List.getD_cons_succ]
      next => rfl
    rw [wordSum_cons_cons, ih, hlen, Nat.add_mod_right, hlast, Nat.add_div_right _ two_pos, Finset.sum_range_succ']
    simp only [Nat.mul_add, Nat.mul_zero, List.getD_cons_succ, List.getD_cons_zero]
    ac_rfl

/-- Settles O25, by induction over the pairs of bytes. -/
theorem wordSumPairsFromIndexZero : Obligations.WordSumPairsFromIndexZero :=
  ⟨wordSum_eq_sum_range, fun b _ => (wordSum_append_zero b).symm⟩

/-! ### The fold (R102) -/

@[simp] theorem fold_zero : fold 0 = 0 := rfl

theorem fold_of_le {n : Nat} (h : n ≤ 0xFFFF) : fold n = n := by
  rw [fold_step, if_neg (by omega)]

/-- R102, the closed form: a pass changes neither the residue modulo 65535 nor being positive. -/
theorem fold_of_pos {n : Nat} (h : 0 < n) : fold n = (n - 1) % 65535 + 1 := by
  induction n using Nat.strong_induction_on with
  | _ n ih =>
    rw [fold_step]
    split
    next hbig =>
      rw [ih _ (foldPass_lt hbig) (by rw [foldPass_eq]; omega), foldPass_eq]
      omega
    next hsmall => omega

theorem fold_le (n : Nat) : fold n ≤ 0xFFFF := by
  obtain rfl | hn := Nat.eq_zero_or_pos n
  · simp
  · rw [fold_of_pos hn]; omega

/-- Settles O26: the loop's equation is `fold_step`, and the range follows from the closed form. -/
theorem foldClosedForm : Obligations.FoldClosedForm :=
  ⟨fold_step, fold_le, fold_zero, fun _ => fold_of_pos⟩

theorem fold_eq_zero_iff (n : Nat) : fold n = 0 ↔ n = 0 := by
  obtain rfl | hn := Nat.eq_zero_or_pos n
  · simp
  · rw [fold_of_pos hn]; omega

theorem fold_eq_ones_iff (n : Nat) : fold n = 0xFFFF ↔ 0 < n ∧ n % 65535 = 0 := by
  obtain rfl | hn := Nat.eq_zero_or_pos n
  · simp
  · rw [fold_of_pos hn]; omega

/-- R105: folding a partial sum before the rest is added does not change the folded sum. -/
theorem fold_fold_add (m n : Nat) : fold (fold m + n) = fold (m + n) := by
  obtain rfl | hm := Nat.eq_zero_or_pos m
  · simp
  · rw [fold_of_pos hm, fold_of_pos (by omega), fold_of_pos (by omega)]; omega

/-! ### The accumulator with end-around carry (R105) -/

namespace Machine

/-- Adding one word to a 16-bit accumulator carries at most once. -/
theorem endAroundAdd_toNat (acc : BitVec 16) {w : Nat} (h : w ≤ 0xFFFF) :
    (endAroundAdd acc w).toNat = fold (acc.toNat + w) := by
  have hacc := acc.isLt
  obtain hzero | hpos := Nat.eq_zero_or_pos (acc.toNat + w)
  · rw [endAroundAdd, if_neg (by omega), hzero]; simp
  · rw [fold_of_pos hpos, endAroundAdd, BitVec.toNat_ofNat]
    split <;> omega

/-- The accumulator always holds the fold of what was summed so far. -/
theorem endAroundSum_toNat (acc : BitVec 16) (b : Bytes) :
    (endAroundSum acc b).toNat = fold (acc.toNat + wordSum b) := by
  induction acc, b using endAroundSum.induct with
  | case1 acc => exact (fold_of_le (Nat.le_of_lt_succ acc.isLt)).symm
  | case2 acc x =>
    have hx := x.isLt
    exact endAroundAdd_toNat acc (by omega)
  | case3 acc x y rest ih =>
    have hx := x.isLt
    have hy := y.isLt
    rw [endAroundSum, ih, endAroundAdd_toNat acc (by omega), fold_fold_add, wordSum_cons_cons]
    simp only [Nat.add_assoc]

/-- Settles O29: the accumulator of `endAroundSum_toNat` started at 0. -/
theorem endAroundCarryIsTheFold : Obligations.EndAroundCarryIsTheFold := by
  intro b
  rw [endAroundSum_toNat]
  simp

end Machine

/-! ### The checksum (R100, R106) -/

theorem checksum_toNat (b : Bytes) : (checksum b).toNat = 0xFFFF - fold (wordSum b) := by
  rw [checksum, BitVec.toNat_ofNat]; omega

/-- The checksum depends on the bytes through the word sum only. -/
theorem checksum_congr {a b : Bytes} (h : wordSum a = wordSum b) : checksum a = checksum b := by
  rw [checksum, checksum, h]

theorem checksum_eq_zero_iff_fold (b : Bytes) : checksum b = 0#16 ↔ fold (wordSum b) = 0xFFFF := by
  have hle := fold_le (wordSum b)
  rw [← BitVec.toNat_inj, checksum_toNat, BitVec.toNat_ofNat]
  omega

/-- R106 (b). -/
theorem checksum_eq_zero_iff (b : Bytes) : checksum b = 0#16 ↔ 0 < wordSum b ∧ wordSum b % 65535 = 0 := by
  rw [checksum_eq_zero_iff_fold, fold_eq_ones_iff]

/-- R106 (a). -/
theorem checksum_eq_ones_iff (b : Bytes) : checksum b = 0xFFFF#16 ↔ ∀ x ∈ b, x = 0#8 := by
  have hle := fold_le (wordSum b)
  rw [← wordSum_eq_zero_iff, ← fold_eq_zero_iff, ← BitVec.toNat_inj, checksum_toNat, BitVec.toNat_ofNat]
  omega

/-- R106 (e): the word sum of a sequence cut at two aligned words, which is the same when they are swapped. -/
theorem wordSum_two_words {a m : Bytes} (ha : a.length % 2 = 0) (hm : m.length % 2 = 0) (x y u v : Byte) (z : Bytes) :
    wordSum (a ++ [x, y] ++ m ++ [u, v] ++ z) =
      wordSum a + wordSum [x, y] + wordSum m + wordSum [u, v] + wordSum z := by
  simp only [List.append_assoc]
  rw [wordSum_append ha, wordSum_append (a := [x, y]) (by simp), wordSum_append hm, wordSum_append (a := [u, v]) (by simp)]
  simp only [Nat.add_assoc]

/-- Settles O30: each fact is one about the word sum. -/
theorem checksumFacts : Obligations.ChecksumFacts := by
  refine ⟨checksum_eq_ones_iff, checksum_eq_zero_iff, fun a b ha => wordSum_append ha b,
    fun b n _ => checksum_congr (wordSum_append_replicate_zero b n),
    fun b _ => checksum_congr (wordSum_append_zero b), fun x y u v a m z ha hm => checksum_congr ?_⟩
  rw [wordSum_two_words ha hm, wordSum_two_words ha hm]
  ac_rfl

/-! ### The verification law (R104) -/

theorem wordSum_enc16 (v : BitVec 16) : wordSum (enc16 v) = v.toNat := by
  have hv := v.isLt
  simp only [enc16, bitField_eq, wordSum_cons_cons, wordSum_nil, BitVec.toNat_ofNat]
  omega

theorem be16_eq_zero {b : Bytes} {p : Nat} (hhigh : byteAt b p = 0#8) (hlow : byteAt b (p + 1) = 0#8) :
    be16 b p = 0#16 := by
  rw [be16, hhigh, hlow]; rfl

/-- Writing the two bytes that stand at an offset changes nothing (R107). -/
theorem patch16_be16 {b : Bytes} {p : Nat} (h : p + 2 ≤ b.length) : patch16 b p (be16 b p) = b := by
  rw [patch16, enc16_be16 h, List.append_assoc, ← List.drop_drop, List.take_append_drop, List.take_append_drop]

theorem wordSum_patch16 {b : Bytes} {p : Nat} (heven : p % 2 = 0) (h : p + 2 ≤ b.length) (v : BitVec 16) :
    wordSum (patch16 b p v) = wordSum (b.take p) + v.toNat + wordSum (b.drop (p + 2)) := by
  have htake : (b.take p).length % 2 = 0 := by rwa [List.length_take_of_le (by omega)]
  rw [patch16, List.append_assoc, wordSum_append htake, wordSum_append (a := enc16 v) (by simp), wordSum_enc16, Nat.add_assoc]

/-- A 16-bit value written into an aligned field that is 0 is added to the word sum. -/
theorem wordSum_patch16_zero_field {b : Bytes} {p : Nat} (heven : p % 2 = 0) (h : p + 2 ≤ b.length)
    (hzero : be16 b p = 0#16) (v : BitVec 16) : wordSum (patch16 b p v) = wordSum b + v.toNat := by
  have hself : wordSum b = wordSum (b.take p) + wordSum (b.drop (p + 2)) := by
    simpa [hzero] using (congrArg wordSum (patch16_be16 h)).symm.trans (wordSum_patch16 heven h (be16 b p))
  rw [wordSum_patch16 heven h, hself]
  omega

/-- A sum with its own checksum added folds to 0xFFFF. -/
theorem fold_add_complement (n : Nat) : fold (n + (0xFFFF - fold n)) = 0xFFFF := by
  have hle := fold_le n
  rw [← fold_fold_add, Nat.add_sub_of_le hle, fold_of_le le_rfl]

/-- 0xFFFF is the other one's-complement zero (45_udp.md R161). -/
theorem fold_add_ones {n : Nat} (h : fold n = 0xFFFF) : fold (n + 0xFFFF) = 0xFFFF := by
  rw [← fold_fold_add, h]; rfl

/-- Settles O28: what is written is added to the word sum, and the sum then folds to 0xFFFF. -/
theorem checksumVerificationLaw : Obligations.ChecksumVerificationLaw := by
  intro b p heven hlen hhigh hlow
  have hzero : be16 b p = 0#16 := be16_eq_zero hhigh hlow
  simp only [checksum_eq_zero_iff_fold, wordSum_patch16_zero_field heven hlen hzero, checksum_toNat]
  exact ⟨fold_add_complement _, fold_add_ones⟩

/-! ### `CSUM` (R100) -/

theorem checksum_singleton_toNat (x : Byte) : (checksum [x]).toNat = 0xFFFF - x.toNat * 256 := by
  have hx := x.isLt
  rw [checksum_toNat, wordSum_singleton, fold_of_le (by omega)]

/-- The example of R100. -/
theorem checksum_example : checksum [0x00, 0x01, 0xf2, 0x03, 0xf4, 0xf5, 0xf6, 0xf7] = 0x220d#16 := by decide

/-- Settles O27: `CSUM` returns the checksum, whose corner cases are the lemmas above. -/
theorem csumComplementsFoldedSum : Obligations.CsumComplementsFoldedSum := by
  refine ⟨fun b => Machine.decode_encode (.csum b), fun s b hfits => ⟨checksum b, ?_, checksum_toNat b, ?_, ?_,
    (checksum_eq_ones_iff b).mpr, checksum_eq_zero_iff_fold b, ?_⟩⟩
  · exact Machine.exec_next (i := .csum b) (decide_eq_true hfits)
  · rintro rfl
    rfl
  · rintro x rfl
    exact checksum_singleton_toNat x
  · rintro rfl
    exact checksum_example

end Sys2Proof
end

section
/-! The frame codec (41_ethernet.md): `ETH.PARSE` answers the record `ethernetOf` reads, and that record and the encoding of
R111 determine each other. -/

namespace Sys2Proof.Machine

/-! ### `ETH.PARSE` (R110, R113) -/

theorem parseEthernet_of_le {b : Bytes} (h : 14 ≤ b.length) : parseEthernet b = .ok (ethernetOf b) :=
  if_neg (Nat.not_lt.mpr h)

theorem parseEthernet_of_lt {b : Bytes} (h : b.length < 14) : parseEthernet b = .error (.formatError .ethTooShort) :=
  if_pos h

theorem exec_ethParse_of_le {s : State} {b : Bytes} (hfits : b.length ≤ s.params.maxLen) (h : 14 ≤ b.length) :
    exec (.ethParse b) s = .next { s with responses := s.responses ++ [.ok (.ethernetFrame (ethernetOf b))] } :=
  exec_answers (r := .ok (.ethernetFrame (ethernetOf b))) (decide_eq_true hfits)
    (by rw [outcomeOf, parseEthernet_of_le h]; rfl) rfl

theorem exec_ethParse_of_lt {s : State} {b : Bytes} (hfits : b.length ≤ s.params.maxLen) (h : b.length < 14) :
    exec (.ethParse b) s = .next { s with responses := s.responses ++ [.error (.formatError .ethTooShort)] } :=
  exec_answers (r := .error (.formatError .ethTooShort)) (decide_eq_true hfits)
    (by rw [outcomeOf, parseEthernet_of_lt h]; rfl) rfl

theorem ethernetOf_dst_toBytes {b : Bytes} (h : 14 ≤ b.length) : (ethernetOf b).dst.toBytes = b.take 6 :=
  macAt_toBytes (by omega)

theorem ethernetOf_src_toBytes {b : Bytes} (h : 14 ≤ b.length) : (ethernetOf b).src.toBytes = (b.drop 6).take 6 :=
  macAt_toBytes (by omega)

theorem ethernetOf_ethertype_toNat (b : Bytes) :
    (ethernetOf b).ethertype.toNat = (b.getD 12 0).toNat * 256 + (b.getD 13 0).toNat :=
  be16_toNat b 12

/-- Settles O31: on at least 14 bytes the record returned is `ethernetOf b`, whose fields are the lemmas above. -/
theorem ethParseFields : Obligations.EthParseFields :=
  ⟨fun b => decode_encode (.ethParse b), fun _ b hfits =>
    ⟨fun h => ⟨ethernetOf b, exec_ethParse_of_le hfits h, ethernetOf_dst_toBytes h, ethernetOf_src_toBytes h,
      ethernetOf_ethertype_toNat b, ethernetOf_payload b, List.length_drop⟩,
    exec_ethParse_of_lt hfits⟩⟩

/-! ### `ETH.ENC` (R111) and the round trip (R112) -/

theorem exec_ethEnc {s : State} {f : EthernetFrame} (hfits : 14 + f.payload.length ≤ s.params.maxLen) :
    exec (.ethEnc f) s = .next { s with responses := s.responses ++ [.ok (.bytes (encodeEthernet f))] } :=
  exec_next (i := .ethEnc f) (decide_eq_true hfits)

/-- R112: every field is read back where it was written; only the EtherType is assembled from bytes. -/
theorem ethernetOf_encodeEthernet (f : EthernetFrame) : ethernetOf (encodeEthernet f) = f :=
  congrArg (EthernetFrame.mk f.dst f.src · f.payload) (be16_bytes_of_enc16 f.ethertype)

/-- R112: the four fields are the bytes in order, cut at 6, 12 and 14. -/
theorem encodeEthernet_ethernetOf {b : Bytes} (h : 14 ≤ b.length) : encodeEthernet (ethernetOf b) = b := by
  have hethertype : enc16 (ethernetOf b).ethertype = (b.drop 12).take 2 := enc16_be16 (by omega)
  calc encodeEthernet (ethernetOf b)
    _ = b.take 6 ++ (b.drop 6).take 6 ++ (b.drop 12).take 2 ++ b.drop 14 := by
      rw [encodeEthernet, ethernetOf_dst_toBytes h, ethernetOf_src_toBytes h, hethertype, ethernetOf_payload]
    _ = b := by
      rw [← List.take_add, ← List.take_add, List.take_append_drop]

/-- Settles O37: the record read from the encoding is `f`, so the bytes at each field's offset are `f`'s. -/
theorem ethEncBytes : Obligations.EthEncBytes := by
  refine ⟨fun f => decode_encode (.ethEnc f), fun s f hfits => ?_⟩
  have hlen : 14 ≤ (encodeEthernet f).length := by simp
  have hdst := ethernetOf_dst_toBytes hlen
  have hsrc := ethernetOf_src_toBytes hlen
  have hethertype := ethernetOf_ethertype_toNat (encodeEthernet f)
  have hpayload := ethernetOf_payload (encodeEthernet f)
  rw [ethernetOf_encodeEthernet] at hdst hsrc hethertype hpayload
  exact ⟨encodeEthernet f, exec_ethEnc hfits, encodeEthernet_length f, hdst.symm, hsrc.symm, hethertype.symm,
    hpayload.symm⟩

/-- Settles O44: `ethernetOf` and `encodeEthernet` are inverse, and either result has the length of the other operation's
operand. -/
theorem ethernetRoundTrip : Obligations.EthernetRoundTrip := by
  refine ⟨fun s f hfits => ⟨encodeEthernet f, exec_ethEnc hfits, ?_⟩, fun s b hlen hfits =>
    ⟨ethernetOf b, exec_ethParse_of_le hfits hlen, ?_⟩⟩
  · rw [exec_ethParse_of_le (by simpa using hfits) (by simp), ethernetOf_encodeEthernet]
  · have hpayload : 14 + (ethernetOf b).payload.length = b.length := by
      rw [← encodeEthernet_length, encodeEthernet_ethernetOf hlen]
    rw [exec_ethEnc (by omega), encodeEthernet_ethernetOf hlen]

end Sys2Proof.Machine
end

section
/-! The address-resolution codec (42_arp.md): `ARP.PARSE` answers the record `arpOf` reads, that record and the encoding of R121
determine each other, and `ARP.REPLY` is the encoding of `arpReplyMessage`. -/

namespace Sys2Proof

theorem Mac.exists_toBytes_eq {b : Bytes} (h : b.length = 6) : ∃ m : Mac, m.toBytes = b := by
  obtain ⟨m, hm⟩ := Option.isSome_iff_exists.mp (Mac.ofBytes_isSome.mpr h)
  exact ⟨m, (Mac.ofBytes_eq_some.mp hm).symm⟩

theorem Ip4.exists_toBytes_eq {b : Bytes} (h : b.length = 4) : ∃ a : Ip4, a.toBytes = b := by
  obtain ⟨a, ha⟩ := Option.isSome_iff_exists.mp (Ip4.ofBytes_isSome.mpr h)
  exact ⟨a, (Ip4.ofBytes_eq_some.mp ha).symm⟩

/-- Two neighbouring one-byte fields are the two bytes there. -/
theorem byteAt_pair {b : Bytes} {k : Nat} (h : k + 2 ≤ b.length) : [byteAt b k, byteAt b (k + 1)] = (b.drop k).take 2 := by
  rw [List.drop_eq_getElem_cons (by omega), List.drop_eq_getElem_cons (by omega)]
  simp only [byteAt, List.getD_eq_getElem _ _ (show k < b.length by omega),
    List.getD_eq_getElem _ _ (show k + 1 < b.length by omega), List.take_succ_cons, List.take_zero]

namespace Machine

/-! ### `ARP.PARSE` (R120, R124) -/

/-- The ARP record of a sequence of at least 28 bytes (R120). -/
def arpOf (b : Bytes) : ArpMessage :=
  { hwtype := be16 b 0
    prototype := be16 b 2
    hwlen := byteAt b 4
    protolen := byteAt b 5
    op := be16 b 6
    senderMac := macAt b 8
    senderIp := ip4At b 14
    targetMac := macAt b 18
    targetIp := ip4At b 24 }

theorem parseArp_of_le {b : Bytes} (h : 28 ≤ b.length) : parseArp b = .ok (arpOf b) :=
  if_neg (Nat.not_lt.mpr h)

theorem parseArp_of_lt {b : Bytes} (h : b.length < 28) : parseArp b = .error (.formatError .arpTooShort) :=
  if_pos h

theorem exec_arpParse_of_le {s : State} {b : Bytes} (hfits : b.length ≤ s.params.maxLen) (h : 28 ≤ b.length) :
    exec (.arpParse b) s = .next { s with responses := s.responses ++ [.ok (.arpMessage (arpOf b))] } :=
  exec_answers (r := .ok (.arpMessage (arpOf b))) (decide_eq_true hfits) (by rw [outcomeOf, parseArp_of_le h]; rfl) rfl

theorem exec_arpParse_of_lt {s : State} {b : Bytes} (hfits : b.length ≤ s.params.maxLen) (h : b.length < 28) :
    exec (.arpParse b) s = .next { s with responses := s.responses ++ [.error (.formatError .arpTooShort)] } :=
  exec_answers (r := .error (.formatError .arpTooShort)) (decide_eq_true hfits)
    (by rw [outcomeOf, parseArp_of_lt h]; rfl) rfl

/-- Settles O32: on at least 28 bytes the record returned is `arpOf b`, each field of it a read at the field's offset. -/
theorem arpParseFields : Obligations.ArpParseFields :=
  ⟨fun b => decode_encode (.arpParse b), fun _ b hfits =>
    ⟨fun h => ⟨arpOf b, exec_arpParse_of_le hfits h, be16_toNat b 0, be16_toNat b 2, rfl, rfl, be16_toNat b 6,
      macAt_toBytes (by omega), ip4At_toBytes (by omega), macAt_toBytes (by omega), ip4At_toBytes (by omega)⟩,
    exec_arpParse_of_lt hfits⟩⟩

/-! ### `ARP.ENC` (R121) and the round trip (R123) -/

theorem exec_arpEnc (s : State) (m : ArpMessage) :
    exec (.arpEnc m) s = .next { s with responses := s.responses ++ [.ok (.bytes (encodeArp m))] } :=
  exec_next (i := .arpEnc m) rfl

/-- Settles O38: the encoding is the nine fields in order, the 16-bit ones as the two bytes of `enc16`. -/
theorem arpEncBytes : Obligations.ArpEncBytes :=
  ⟨fun m => decode_encode (.arpEnc m), fun s m =>
    ⟨encodeArp m, exec_arpEnc s m, encodeArp_length m, enc16_toNat m.hwtype, enc16_toNat m.prototype, rfl, rfl,
      enc16_toNat m.op, rfl, rfl, rfl, rfl⟩⟩

/-- R123: every field is read back where it was written; only the 16-bit ones are assembled from bytes. -/
theorem arpOf_encodeArp (m : ArpMessage) : arpOf (encodeArp m) = m := by
  have hhwtype : be16 (encodeArp m) 0 = m.hwtype := be16_bytes_of_enc16 m.hwtype
  have hprototype : be16 (encodeArp m) 2 = m.prototype := be16_bytes_of_enc16 m.prototype
  have hop : be16 (encodeArp m) 6 = m.op := be16_bytes_of_enc16 m.op
  rw [arpOf, hhwtype, hprototype, hop]
  rfl

/-- R123: the nine fields are the bytes in order; what follows the 28th is not held by the record. -/
theorem encodeArp_arpOf {b : Bytes} (h : 28 ≤ b.length) : encodeArp (arpOf b) = b.take 28 := by
  have hhwtype : enc16 (arpOf b).hwtype = b.take 2 := enc16_be16 (by omega)
  have hprototype : enc16 (arpOf b).prototype = (b.drop 2).take 2 := enc16_be16 (by omega)
  have hlengths : [(arpOf b).hwlen, (arpOf b).protolen] = (b.drop 4).take 2 := byteAt_pair (by omega)
  have hop : enc16 (arpOf b).op = (b.drop 6).take 2 := enc16_be16 (by omega)
  have hsenderMac : (arpOf b).senderMac.toBytes = (b.drop 8).take 6 := macAt_toBytes (by omega)
  have hsenderIp : (arpOf b).senderIp.toBytes = (b.drop 14).take 4 := ip4At_toBytes (by omega)
  have htargetMac : (arpOf b).targetMac.toBytes = (b.drop 18).take 6 := macAt_toBytes (by omega)
  have htargetIp : (arpOf b).targetIp.toBytes = (b.drop 24).take 4 := ip4At_toBytes (by omega)
  rw [encodeArp, hhwtype, hprototype, hlengths, hop, hsenderMac, hsenderIp, htargetMac, htargetIp]
  simp only [← List.take_add]

/-- The encoding of a record is parsed to the record wherever it may be presented (R41, R123). -/
theorem exec_arpParse_encodeArp {s : State} (hp : s.params.Valid) (m : ArpMessage) :
    exec (.arpParse (encodeArp m)) s = .next { s with responses := s.responses ++ [.ok (.arpMessage m)] } := by
  obtain ⟨hmin, -⟩ := hp
  rw [exec_arpParse_of_le (by rw [encodeArp_length]; omega) (encodeArp_length m).ge, arpOf_encodeArp]

/-- Settles O45: `arpOf` undoes `encodeArp`, which writes back the bytes `arpOf` reads. -/
theorem arpRoundTrip : Obligations.ArpRoundTrip := by
  refine ⟨fun s m hp => ⟨encodeArp m, exec_arpEnc s m, exec_arpParse_encodeArp hp m⟩, fun s b hlen hfits =>
    ⟨arpOf b, exec_arpParse_of_le hfits hlen, ?_⟩⟩
  rw [exec_arpEnc, encodeArp_arpOf hlen]

/-! ### `ARP.REPLY` (R122, R125) -/

theorem buildArpReply_toBytes (q : ArpMessage) (mac : Mac) (ip : Ip4) :
    buildArpReply q mac.toBytes ip.toBytes = .ok (encodeArp (arpReplyMessage q mac ip)) := rfl

theorem buildArpReply_of_length_ne {lm li : Bytes} (q : ArpMessage) (h : lm.length ≠ 6 ∨ li.length ≠ 4) :
    buildArpReply q lm li = .error (.validationError .invalidAddressLength) := by
  unfold buildArpReply
  split
  next mac ip hmac hip =>
    rw [Mac.ofBytes_eq_some.mp hmac, Ip4.ofBytes_eq_some.mp hip] at h
    simp at h
  next => rfl

/-- R122: the constants of the reply as bytes, then the two identities. -/
theorem encodeArp_arpReplyMessage (q : ArpMessage) (mac : Mac) (ip : Ip4) :
    encodeArp (arpReplyMessage q mac ip) = [0x00, 0x01, 0x08, 0x00, 0x06, 0x04, 0x00, 0x02] ++ mac.toBytes ++ ip.toBytes
      ++ q.senderMac.toBytes ++ q.senderIp.toBytes := by
  have hhwtype : enc16 arpHwEthernet = [0x00, 0x01] := by decide
  have hprototype : enc16 arpProtoIpv4 = [0x08, 0x00] := by decide
  have hop : enc16 arpOpReply = [0x00, 0x02] := by decide
  rw [encodeArp, arpReplyMessage, hhwtype, hprototype, hop]
  rfl

theorem wellFormed_arpReply {p : Config.Params} {lm li : Bytes} (q : ArpMessage) (hmac : lm.length ≤ p.maxLen)
    (hip : li.length ≤ p.maxLen) : (Instr.arpReply q lm li).wellFormed p = true := by
  simp [Instr.wellFormed, hmac, hip]

theorem exec_arpReply_of_toBytes {s : State} {mac : Mac} {ip : Ip4} (q : ArpMessage)
    (hmac : mac.toBytes.length ≤ s.params.maxLen) (hip : ip.toBytes.length ≤ s.params.maxLen) :
    exec (.arpReply q mac.toBytes ip.toBytes) s =
      .next { s with responses := s.responses ++ [.ok (.bytes (encodeArp (arpReplyMessage q mac ip)))] } :=
  exec_answers (r := .ok (.bytes _)) (wellFormed_arpReply q hmac hip)
    (by rw [outcomeOf, buildArpReply_toBytes]; rfl) rfl

theorem exec_arpReply_of_length_ne {s : State} {lm li : Bytes} (q : ArpMessage) (hmac : lm.length ≤ s.params.maxLen)
    (hip : li.length ≤ s.params.maxLen) (h : lm.length ≠ 6 ∨ li.length ≠ 4) :
    exec (.arpReply q lm li) s =
      .next { s with responses := s.responses ++ [.error (.validationError .invalidAddressLength)] } :=
  exec_answers (r := .error _) (wellFormed_arpReply q hmac hip)
    (by rw [outcomeOf, buildArpReply_of_length_ne q h]; rfl) rfl

/-- Settles O39: sequences of 6 and 4 bytes are a `Mac` and an `Ip4`, and the reply encodes `arpReplyMessage` of the two. -/
theorem arpReplyBytes : Obligations.ArpReplyBytes := by
  refine ⟨fun q lm li => decode_encode (.arpReply q lm li), fun s q lm li hmac hip => ⟨fun hlm hli => ?_,
    exec_arpReply_of_length_ne q hmac hip⟩⟩
  obtain ⟨mac, rfl⟩ := Mac.exists_toBytes_eq hlm
  obtain ⟨ip, rfl⟩ := Ip4.exists_toBytes_eq hli
  rw [exec_arpReply_of_toBytes q hmac hip, encodeArp_arpReplyMessage]

/-- Settles O46: by the round trip the parsed reply is `arpReplyMessage` itself. -/
theorem arpReplyAddressing : Obligations.ArpReplyAddressing := by
  intro s q lm li hp hlm hli
  have hmin : 54 ≤ s.params.maxLen := hp.1
  obtain ⟨mac, rfl⟩ := Mac.exists_toBytes_eq hlm
  obtain ⟨ip, rfl⟩ := Ip4.exists_toBytes_eq hli
  exact ⟨encodeArp (arpReplyMessage q mac ip), arpReplyMessage q mac ip,
    exec_arpReply_of_toBytes q (by omega) (by omega), exec_arpParse_encodeArp hp _, rfl, rfl, rfl, rfl, rfl, rfl, rfl⟩

end Machine
end Sys2Proof
end

section
/-! Writing a 16-bit field (40_checksum.md R107): what `patch16` leaves, and the checksum of a sequence whose checksum field was
patched, with whatever stands before it in the sum (R104). -/

namespace Sys2Proof

theorem byteAt_take {b : Bytes} {n k : Nat} (h : k < n) : byteAt (b.take n) k = byteAt b k := by
  simp only [byteAt, List.getD_eq_getElem?_getD, List.getElem?_take_of_lt h]

theorem be16_take {b : Bytes} {n k : Nat} (h : k + 1 < n) : be16 (b.take n) k = be16 b k := by
  rw [be16, byteAt_take (Nat.lt_of_succ_lt h), byteAt_take h, ← be16]

theorem take_patch16 {b : Bytes} {p : Nat} (h : p ≤ b.length) (v : BitVec 16) : (patch16 b p v).take p = b.take p := by
  rw [patch16, List.append_assoc, List.take_left' (List.length_take_of_le h)]

theorem drop_patch16 {b : Bytes} {p : Nat} (h : p ≤ b.length) (v : BitVec 16) :
    (patch16 b p v).drop (p + 2) = b.drop (p + 2) := by
  rw [patch16, List.drop_left' (by simp [h])]

/-- The later of two writes to one field counts. -/
theorem patch16_patch16 {b : Bytes} {p : Nat} (h : p ≤ b.length) (v w : BitVec 16) :
    patch16 (patch16 b p v) p w = patch16 b p w := by
  rw [patch16, take_patch16 h, drop_patch16 h, ← patch16]

/-- A value written into an aligned field that is 0, in the second of two parts summed together. -/
theorem wordSum_append_patch16 {a b : Bytes} {p : Nat} (ha : a.length % 2 = 0) (hp : p % 2 = 0) (hlen : p + 2 ≤ b.length)
    (hzero : be16 b p = 0#16) (v : BitVec 16) : wordSum (a ++ patch16 b p v) = wordSum (a ++ b) + v.toNat := by
  rw [wordSum_append ha, wordSum_append ha, wordSum_patch16_zero_field hp hlen hzero, Nat.add_assoc]

/-- R104, with a pseudo-header or nothing as `a`. -/
theorem checksum_append_patch16_checksum {a b : Bytes} {p : Nat} (ha : a.length % 2 = 0) (hp : p % 2 = 0)
    (hlen : p + 2 ≤ b.length) (hzero : be16 b p = 0#16) : checksum (a ++ patch16 b p (checksum (a ++ b))) = 0#16 := by
  rw [checksum_eq_zero_iff_fold, wordSum_append_patch16 ha hp hlen hzero, checksum_toNat, fold_add_complement]

theorem checksum_patch16_checksum {b : Bytes} {p : Nat} (hp : p % 2 = 0) (hlen : p + 2 ≤ b.length)
    (hzero : be16 b p = 0#16) : checksum (patch16 b p (checksum b)) = 0#16 := by
  simpa using checksum_append_patch16_checksum (a := []) rfl hp hlen hzero

/-- R104, 45_udp.md R161: the remap of a zero result keeps what the receiver sums. -/
theorem checksum_append_patch16_udpRemap {a b : Bytes} {p : Nat} (ha : a.length % 2 = 0) (hp : p % 2 = 0)
    (hlen : p + 2 ≤ b.length) (hzero : be16 b p = 0#16) :
    checksum (a ++ patch16 b p (Machine.udpRemap (checksum (a ++ b)))) = 0#16 := by
  unfold Machine.udpRemap
  split
  next hc =>
    rw [checksum_eq_zero_iff_fold] at hc ⊢
    rw [wordSum_append_patch16 ha hp hlen hzero]
    exact fold_add_ones hc
  next => exact checksum_append_patch16_checksum ha hp hlen hzero

end Sys2Proof
end

section
/-! The network-layer codec (43_ipv4.md): `IP4.PARSE` answers the record `ipv4HeaderOf` reads, `IP4.ENC` writes its fields back
with the computed checksum. -/

namespace Sys2Proof.Machine

/-! ### Fields that share bytes (30_encoding.md R66, R67) -/

theorem highNibble_toNat (x : Byte) : (BitVec.ofNat 4 (bitField x.toNat 7 4)).toNat = x.toNat / 16 := by
  have hx := x.isLt
  rw [bitField_eq, BitVec.toNat_ofNat]
  omega

theorem lowNibble_toNat (x : Byte) : (BitVec.ofNat 4 (bitField x.toNat 3 0)).toNat = x.toNat % 16 := by
  rw [bitField_eq, BitVec.toNat_ofNat]
  omega

theorem flagsField_toNat (w : BitVec 16) : (BitVec.ofNat 3 (bitField w.toNat 15 13)).toNat = w.toNat / 8192 := by
  have hw := w.isLt
  rw [bitField_eq, BitVec.toNat_ofNat]
  omega

theorem fragOffsetField_toNat (w : BitVec 16) : (BitVec.ofNat 13 (bitField w.toNat 12 0)).toNat = w.toNat % 8192 := by
  rw [bitField_eq, BitVec.toNat_ofNat]
  omega

theorem nibblePair_toNat (hi lo : BitVec 4) :
    (BitVec.ofNat 8 (hi.toNat * 16 + lo.toNat)).toNat = hi.toNat * 16 + lo.toNat := by
  have hhi := hi.isLt
  have hlo := lo.isLt
  rw [BitVec.toNat_ofNat]
  omega

theorem flagsWord_toNat (flags : BitVec 3) (frag : BitVec 13) :
    (BitVec.ofNat 16 (flags.toNat * 8192 + frag.toNat)).toNat = flags.toNat * 8192 + frag.toNat := by
  have hflags := flags.isLt
  have hfrag := frag.isLt
  rw [BitVec.toNat_ofNat]
  omega

/-- The byte of two nibbles is read back as the two. -/
theorem nibbles_of_nibblePair (hi lo : BitVec 4) :
    BitVec.ofNat 4 (bitField (BitVec.ofNat 8 (hi.toNat * 16 + lo.toNat)).toNat 7 4) = hi
    ∧ BitVec.ofNat 4 (bitField (BitVec.ofNat 8 (hi.toNat * 16 + lo.toNat)).toNat 3 0) = lo := by
  have hlo := lo.isLt
  constructor
  · apply BitVec.eq_of_toNat_eq
    rw [highNibble_toNat, nibblePair_toNat]
    omega
  · apply BitVec.eq_of_toNat_eq
    rw [lowNibble_toNat, nibblePair_toNat]
    omega

/-- Two nibbles read from a byte are written back as the byte. -/
theorem nibblePair_of_nibbles (x : Byte) : BitVec.ofNat 8 ((BitVec.ofNat 4 (bitField x.toNat 7 4)).toNat * 16
    + (BitVec.ofNat 4 (bitField x.toNat 3 0)).toNat) = x := by
  apply BitVec.eq_of_toNat_eq
  rw [nibblePair_toNat, highNibble_toNat, lowNibble_toNat]
  omega

/-- The word of flags and fragment offset is read back as the two. -/
theorem fields_of_flagsWord (flags : BitVec 3) (frag : BitVec 13) :
    BitVec.ofNat 3 (bitField (BitVec.ofNat 16 (flags.toNat * 8192 + frag.toNat)).toNat 15 13) = flags
    ∧ BitVec.ofNat 13 (bitField (BitVec.ofNat 16 (flags.toNat * 8192 + frag.toNat)).toNat 12 0) = frag := by
  have hfrag := frag.isLt
  constructor
  · apply BitVec.eq_of_toNat_eq
    rw [flagsField_toNat, flagsWord_toNat]
    omega
  · apply BitVec.eq_of_toNat_eq
    rw [fragOffsetField_toNat, flagsWord_toNat]
    omega

/-- Flags and fragment offset read from a word are written back as the word. -/
theorem flagsWord_of_fields (w : BitVec 16) : BitVec.ofNat 16 ((BitVec.ofNat 3 (bitField w.toNat 15 13)).toNat * 8192
    + (BitVec.ofNat 13 (bitField w.toNat 12 0)).toNat) = w := by
  apply BitVec.eq_of_toNat_eq
  rw [flagsWord_toNat, flagsField_toNat, fragOffsetField_toNat]
  omega

/-! ### `IP4.PARSE` (R135, R139) -/

/-- The IPv4 record of a sequence of at least 20 bytes (R135). -/
def ipv4HeaderOf (b : Bytes) : Ipv4Header :=
  { version := BitVec.ofNat 4 (bitField (byteAt b 0).toNat 7 4)
    ihl := BitVec.ofNat 4 (bitField (byteAt b 0).toNat 3 0)
    tos := byteAt b 1
    totalLength := be16 b 2
    id := be16 b 4
    flags := BitVec.ofNat 3 (bitField (be16 b 6).toNat 15 13)
    fragOffset := BitVec.ofNat 13 (bitField (be16 b 6).toNat 12 0)
    ttl := byteAt b 8
    protocol := byteAt b 9
    checksum := be16 b 10
    src := ip4At b 12
    dst := ip4At b 16 }

theorem parseIpv4_of_le {b : Bytes} (h : 20 ≤ b.length) : parseIpv4 b = .ok (ipv4HeaderOf b) :=
  if_neg (Nat.not_lt.mpr h)

theorem parseIpv4_of_lt {b : Bytes} (h : b.length < 20) : parseIpv4 b = .error (.formatError .ip4TooShort) :=
  if_pos h

theorem exec_ip4Parse_of_le {s : State} {b : Bytes} (hfits : b.length ≤ s.params.maxLen) (h : 20 ≤ b.length) :
    exec (.ip4Parse b) s = .next { s with responses := s.responses ++ [.ok (.ipv4Header (ipv4HeaderOf b))] } :=
  exec_answers (r := .ok (.ipv4Header (ipv4HeaderOf b))) (decide_eq_true hfits)
    (by rw [outcomeOf, parseIpv4_of_le h]; rfl) rfl

theorem exec_ip4Parse_of_lt {s : State} {b : Bytes} (hfits : b.length ≤ s.params.maxLen) (h : b.length < 20) :
    exec (.ip4Parse b) s = .next { s with responses := s.responses ++ [.error (.formatError .ip4TooShort)] } :=
  exec_answers (r := .error (.formatError .ip4TooShort)) (decide_eq_true hfits)
    (by rw [outcomeOf, parseIpv4_of_lt h]; rfl) rfl

/-- R67: the flags are the three high bits of byte 6. -/
theorem ipv4HeaderOf_flags_toNat (b : Bytes) : (ipv4HeaderOf b).flags.toNat = (byteAt b 6).toNat / 32 := by
  have hlow := (byteAt b 7).isLt
  have hword : (be16 b 6).toNat = (byteAt b 6).toNat * 256 + (byteAt b 7).toNat := be16_toNat b 6
  rw [ipv4HeaderOf, flagsField_toNat]
  omega

/-- R67: the fragment offset is the five low bits of byte 6, then byte 7. -/
theorem ipv4HeaderOf_fragOffset_toNat (b : Bytes) :
    (ipv4HeaderOf b).fragOffset.toNat = (byteAt b 6).toNat % 32 * 256 + (byteAt b 7).toNat := by
  have hlow := (byteAt b 7).isLt
  have hword : (be16 b 6).toNat = (byteAt b 6).toNat * 256 + (byteAt b 7).toNat := be16_toNat b 6
  rw [ipv4HeaderOf, fragOffsetField_toNat]
  omega

/-- Settles O33: on at least 20 bytes the record returned is `ipv4HeaderOf b`, each field of it a read at the field's offset. -/
theorem ip4ParseFields : Obligations.Ip4ParseFields :=
  ⟨fun b => decode_encode (.ip4Parse b), fun _ b hfits =>
    ⟨fun h => ⟨ipv4HeaderOf b, exec_ip4Parse_of_le hfits h, highNibble_toNat (byteAt b 0), lowNibble_toNat (byteAt b 0),
      rfl, be16_toNat b 2, be16_toNat b 4, ipv4HeaderOf_flags_toNat b, ipv4HeaderOf_fragOffset_toNat b, rfl, rfl,
      be16_toNat b 10, ip4At_toBytes (by omega), ip4At_toBytes (by omega)⟩,
    exec_ip4Parse_of_lt hfits⟩⟩

/-! ### `IP4.ENC` (R136) -/

theorem exec_ip4Enc (s : State) (h : Ipv4Header) :
    exec (.ip4Enc h) s = .next { s with responses := s.responses ++ [.ok (.bytes (encodeIpv4 h))] } :=
  exec_next (i := .ip4Enc h) rfl

/-- R136: the checksum written is the one of the header as emitted, its field zero. -/
theorem ipv4Unsummed_eq_zeroed_encodeIpv4 (h : Ipv4Header) :
    ipv4Unsummed h = (encodeIpv4 h).take 10 ++ [0, 0] ++ (encodeIpv4 h).drop 12 := rfl

/-- Settles O40: the encoding is the fields in order, the 16-bit ones as the two bytes of `enc16`. -/
theorem ip4EncBytes : Obligations.Ip4EncBytes := by
  refine ⟨fun h => decode_encode (.ip4Enc h), fun s h => ?_⟩
  have hflags := (enc16_toNat _).trans (flagsWord_toNat h.flags h.fragOffset)
  have hchecksum := enc16_toNat (checksum (ipv4Unsummed h))
  exact ⟨encodeIpv4 h, exec_ip4Enc s h, encodeIpv4_length h, nibblePair_toNat h.version h.ihl, rfl,
    enc16_toNat h.totalLength, enc16_toNat h.id, hflags, rfl, rfl, hchecksum, rfl, rfl⟩

/-! ### The round trip (R138) -/

/-- R138: every field is read back where it was written, the checksum as it was computed. -/
theorem ipv4HeaderOf_encodeIpv4 (h : Ipv4Header) :
    ipv4HeaderOf (encodeIpv4 h) = { h with checksum := checksum (ipv4Unsummed h) } := by
  obtain ⟨hversion, hihl⟩ := nibbles_of_nibblePair h.version h.ihl
  obtain ⟨hflags, hfrag⟩ := fields_of_flagsWord h.flags h.fragOffset
  have hbyte : byteAt (encodeIpv4 h) 0 = BitVec.ofNat 8 (h.version.toNat * 16 + h.ihl.toNat) := rfl
  have hword : be16 (encodeIpv4 h) 6 = BitVec.ofNat 16 (h.flags.toNat * 8192 + h.fragOffset.toNat) := be16_bytes_of_enc16 _
  have htotalLength : be16 (encodeIpv4 h) 2 = h.totalLength := be16_bytes_of_enc16 _
  have hid : be16 (encodeIpv4 h) 4 = h.id := be16_bytes_of_enc16 _
  have hchecksum : be16 (encodeIpv4 h) 10 = checksum (ipv4Unsummed h) := be16_bytes_of_enc16 _
  rw [ipv4HeaderOf, hbyte, hversion, hihl, hword, hflags, hfrag, htotalLength, hid, hchecksum]
  rfl

/-- R138: the record's fields but the checksum are the first 20 bytes in order, around the checksum field. -/
theorem ipv4Unsummed_ipv4HeaderOf {b : Bytes} (h : 20 ≤ b.length) :
    ipv4Unsummed (ipv4HeaderOf b) = patch16 (b.take 20) 10 0#16 := by
  have hfirst : [BitVec.ofNat 8 ((ipv4HeaderOf b).version.toNat * 16 + (ipv4HeaderOf b).ihl.toNat), (ipv4HeaderOf b).tos]
      = b.take 2 := by
    rw [ipv4HeaderOf, nibblePair_of_nibbles]
    exact byteAt_pair (k := 0) (by omega)
  have htotalLength : enc16 (ipv4HeaderOf b).totalLength = (b.drop 2).take 2 := enc16_be16 (by omega)
  have hid : enc16 (ipv4HeaderOf b).id = (b.drop 4).take 2 := enc16_be16 (by omega)
  have hflags : enc16 (BitVec.ofNat 16 ((ipv4HeaderOf b).flags.toNat * 8192 + (ipv4HeaderOf b).fragOffset.toNat))
      = (b.drop 6).take 2 := by
    rw [ipv4HeaderOf, flagsWord_of_fields]
    exact enc16_be16 (by omega)
  have hprotocol : [(ipv4HeaderOf b).ttl, (ipv4HeaderOf b).protocol] = (b.drop 8).take 2 := byteAt_pair (by omega)
  have hsrc : (ipv4HeaderOf b).src.toBytes = (b.drop 12).take 4 := ip4At_toBytes (by omega)
  have hdst : (ipv4HeaderOf b).dst.toBytes = (b.drop 16).take 4 := ip4At_toBytes (by omega)
  have hzero : [0#8, 0#8] = enc16 0#16 := by decide
  have hfront : (b.take 20).take 10 = b.take 10 := List.take_take
  have hback : (b.take 20).drop (10 + 2) = (b.drop 12).take 4 ++ (b.drop 16).take 4 := by
    rw [List.drop_take, ← List.drop_drop (i := 4) (j := 12), ← List.take_add]
  rw [ipv4Unsummed, hfirst, htotalLength, hid, hflags, hprotocol, hzero, hsrc, hdst, patch16, hfront, hback]
  simp only [← List.take_add, ← List.append_assoc, Nat.reduceAdd]

/-- R138: encoding the record of a sequence corrects its checksum and changes nothing else of the first 20 bytes. -/
theorem encodeIpv4_ipv4HeaderOf {b : Bytes} (h : 20 ≤ b.length) :
    encodeIpv4 (ipv4HeaderOf b) = patch16 (b.take 20) 10 (checksum (patch16 (b.take 20) 10 0#16)) := by
  rw [encodeIpv4, ipv4Unsummed_ipv4HeaderOf h, patch16_patch16 (by simp; omega)]

theorem exec_ip4Parse_encodeIpv4 {s : State} (hp : s.params.Valid) (h : Ipv4Header) :
    exec (.ip4Parse (encodeIpv4 h)) s = .next { s with
      responses := s.responses ++ [.ok (.ipv4Header { h with checksum := checksum (ipv4Unsummed h) })] } := by
  obtain ⟨hmin, -⟩ := hp
  rw [exec_ip4Parse_of_le (by rw [encodeIpv4_length]; omega) (encodeIpv4_length h).ge, ipv4HeaderOf_encodeIpv4]

/-- Settles O47: `ipv4HeaderOf` undoes `encodeIpv4` but for the checksum, and `encodeIpv4` patches the checksum into the bytes
`ipv4HeaderOf` reads; writing the value that stands there changes nothing. -/
theorem ipv4RoundTrip : Obligations.Ipv4RoundTrip := by
  constructor
  · intro s h hp
    exact ⟨encodeIpv4 h, checksum (ipv4Unsummed h), exec_ip4Enc s h,
      congrArg checksum (ipv4Unsummed_eq_zeroed_encodeIpv4 h), exec_ip4Parse_encodeIpv4 hp h⟩
  · intro s b hlen hfits
    have htake : 10 ≤ (b.take 20).length := by simp; omega
    refine ⟨ipv4HeaderOf b, encodeIpv4 (ipv4HeaderOf b), exec_ip4Parse_of_le hfits hlen, exec_ip4Enc s _, ?_⟩
    rw [encodeIpv4_ipv4HeaderOf hlen]
    refine ⟨(take_patch16 htake _).trans List.take_take, drop_patch16 htake _, fun hright => ?_⟩
    have hfield : (ipv4HeaderOf b).checksum = be16 (b.take 20) 10 := (be16_take (by omega)).symm
    rw [← hright, hfield, patch16_be16 (by simp; omega)]

end Sys2Proof.Machine
end

section
/-! The outputs of the four encoders with a checksum verify (R104): each patches an aligned field that is zero with the
checksum of the segment, the pseudo-header before it for UDP and TCP. -/

namespace Sys2Proof.Machine

theorem exec_icmpEnc {s : State} {m : IcmpMessage} (hfits : 8 + m.data.length ≤ s.params.maxLen) :
    exec (.icmpEnc m) s = .next { s with responses := s.responses ++ [.ok (.bytes (encodeIcmp m))] } :=
  exec_next (i := .icmpEnc m) (decide_eq_true hfits)

theorem exec_udpEnc {s : State} {m : UdpMessage} (a d : Ip4) (hfits : 8 + m.data.length ≤ s.params.maxLen) :
    exec (.udpEnc m a d) s = .next { s with responses := s.responses ++ [.ok (.bytes (encodeUdp m a d))] } :=
  exec_next (i := .udpEnc m a d) (decide_eq_true hfits)

theorem exec_tcpEnc {s : State} {m : TcpMessage} (a d : Ip4) (hfits : 20 + m.data.length ≤ s.params.maxLen) :
    exec (.tcpEnc m a d) s = .next { s with responses := s.responses ++ [.ok (.bytes (encodeTcp m a d))] } :=
  exec_next (i := .tcpEnc m a d) (decide_eq_true hfits)

theorem ipv4Unsummed_checksum_field (h : Ipv4Header) : be16 (ipv4Unsummed h) 10 = 0#16 := be16_eq_zero rfl rfl

theorem icmpUnsummed_checksum_field (m : IcmpMessage) : be16 (icmpUnsummed m) 2 = 0#16 := be16_eq_zero rfl rfl

theorem udpUnsummed_checksum_field (m : UdpMessage) : be16 (udpUnsummed m) 6 = 0#16 := be16_eq_zero rfl rfl

theorem tcpUnsummed_checksum_field (m : TcpMessage) : be16 (tcpUnsummed m) 16 = 0#16 := be16_eq_zero rfl rfl

/-- 43_ipv4.md R140. -/
theorem checksum_encodeIpv4 (h : Ipv4Header) : checksum (encodeIpv4 h) = 0#16 :=
  checksum_patch16_checksum (by decide) (by simp [ipv4Unsummed]) (ipv4Unsummed_checksum_field h)

/-- 44_icmp.md R155. -/
theorem checksum_encodeIcmp (m : IcmpMessage) : checksum (encodeIcmp m) = 0#16 :=
  checksum_patch16_checksum (by decide) (by simp [icmpUnsummed]) (icmpUnsummed_checksum_field m)

/-- 45_udp.md R165. -/
theorem checksum_pseudoHeader_encodeUdp (m : UdpMessage) (a d : Ip4) :
    checksum (pseudoHeader a d protoUdp (encodeUdp m a d).length ++ encodeUdp m a d) = 0#16 := by
  rw [encodeUdp_length, encodeUdp, udpChecksum]
  exact checksum_append_patch16_udpRemap (by simp) (by decide) (by simp [udpUnsummed]; omega) (udpUnsummed_checksum_field m)

/-- 46_tcp.md R174. -/
theorem checksum_pseudoHeader_encodeTcp (m : TcpMessage) (a d : Ip4) :
    checksum (pseudoHeader a d protoTcp (encodeTcp m a d).length ++ encodeTcp m a d) = 0#16 := by
  rw [encodeTcp_length, encodeTcp, tcpChecksum]
  exact checksum_append_patch16_checksum (by simp) (by decide) (by simp [tcpUnsummed]; omega) (tcpUnsummed_checksum_field m)

/-- Settles O51: each encoder's output and the lemma above that it verifies. -/
theorem encodedChecksumsVerify : Obligations.EncodedChecksumsVerify :=
  fun s => ⟨fun h => ⟨encodeIpv4 h, exec_ip4Enc s h, checksum_encodeIpv4 h⟩,
    fun m hfits => ⟨encodeIcmp m, exec_icmpEnc hfits, checksum_encodeIcmp m⟩,
    fun m a d hfits => ⟨encodeUdp m a d, exec_udpEnc a d hfits, checksum_pseudoHeader_encodeUdp m a d⟩,
    fun m a d hfits => ⟨encodeTcp m a d, exec_tcpEnc a d hfits, checksum_pseudoHeader_encodeTcp m a d⟩⟩

end Sys2Proof.Machine
end

section
/-! The ICMP codec (44_icmp.md): `ICMP.PARSE` answers the record `icmpOf` reads, `ICMP.ENC` writes its fields back with the
computed checksum. -/

namespace Sys2Proof.Machine

/-! ### `ICMP.PARSE` (R150, R154) -/

/-- The ICMP record of a sequence of at least 8 bytes (R150). -/
def icmpOf (b : Bytes) : IcmpMessage :=
  { type := byteAt b 0
    code := byteAt b 1
    checksum := be16 b 2
    id := be16 b 4
    seq := be16 b 6
    data := b.drop 8 }

theorem parseIcmp_of_le {b : Bytes} (h : 8 ≤ b.length) : parseIcmp b = .ok (icmpOf b) :=
  if_neg (Nat.not_lt.mpr h)

theorem parseIcmp_of_lt {b : Bytes} (h : b.length < 8) : parseIcmp b = .error (.formatError .icmpTooShort) :=
  if_pos h

theorem exec_icmpParse_of_le {s : State} {b : Bytes} (hfits : b.length ≤ s.params.maxLen) (h : 8 ≤ b.length) :
    exec (.icmpParse b) s = .next { s with responses := s.responses ++ [.ok (.icmpMessage (icmpOf b))] } :=
  exec_answers (r := .ok (.icmpMessage (icmpOf b))) (decide_eq_true hfits)
    (by rw [outcomeOf, parseIcmp_of_le h]; rfl) rfl

theorem exec_icmpParse_of_lt {s : State} {b : Bytes} (hfits : b.length ≤ s.params.maxLen) (h : b.length < 8) :
    exec (.icmpParse b) s = .next { s with responses := s.responses ++ [.error (.formatError .icmpTooShort)] } :=
  exec_answers (r := .error (.formatError .icmpTooShort)) (decide_eq_true hfits)
    (by rw [outcomeOf, parseIcmp_of_lt h]; rfl) rfl

/-- Settles O34: on at least 8 bytes the record returned is `icmpOf b`, each field of it a read at the field's offset. -/
theorem icmpParseFields : Obligations.IcmpParseFields :=
  ⟨fun b => decode_encode (.icmpParse b), fun _ b hfits =>
    ⟨fun h => ⟨icmpOf b, exec_icmpParse_of_le hfits h, rfl, rfl, be16_toNat b 2, be16_toNat b 4, be16_toNat b 6, rfl⟩,
    exec_icmpParse_of_lt hfits⟩⟩

/-! ### `ICMP.ENC` (R151) -/

/-- R151, R152: the checksum written is the one of the message as emitted, its field zero, with nothing before it. -/
theorem icmpUnsummed_eq_zeroed_encodeIcmp (m : IcmpMessage) :
    icmpUnsummed m = (encodeIcmp m).take 2 ++ [0, 0] ++ (encodeIcmp m).drop 4 := rfl

/-- Settles O41: the encoding is the fields in order, the 16-bit ones as the two bytes of `enc16`. -/
theorem icmpEncBytes : Obligations.IcmpEncBytes := by
  refine ⟨fun m => decode_encode (.icmpEnc m), fun s m hfits => ?_⟩
  have hchecksum := enc16_toNat (checksum (icmpUnsummed m))
  exact ⟨encodeIcmp m, exec_icmpEnc hfits, encodeIcmp_length m, rfl, rfl, hchecksum, enc16_toNat m.id, enc16_toNat m.seq,
    rfl⟩

/-! ### The round trip (R153) -/

/-- R153: every field is read back where it was written, the checksum as it was computed. -/
theorem icmpOf_encodeIcmp (m : IcmpMessage) :
    icmpOf (encodeIcmp m) = { m with checksum := checksum (icmpUnsummed m) } := by
  have hchecksum : be16 (encodeIcmp m) 2 = checksum (icmpUnsummed m) := be16_bytes_of_enc16 _
  have hid : be16 (encodeIcmp m) 4 = m.id := be16_bytes_of_enc16 _
  have hseq : be16 (encodeIcmp m) 6 = m.seq := be16_bytes_of_enc16 _
  rw [icmpOf, hchecksum, hid, hseq]
  rfl

/-- R153: the record's fields but the checksum are the bytes in order, around the checksum field. -/
theorem icmpUnsummed_icmpOf {b : Bytes} (h : 8 ≤ b.length) : icmpUnsummed (icmpOf b) = patch16 b 2 0#16 := by
  have hfirst : [(icmpOf b).type, (icmpOf b).code] = b.take 2 := byteAt_pair (k := 0) (by omega)
  have hid : enc16 (icmpOf b).id = (b.drop 4).take 2 := enc16_be16 (by omega)
  have hseq : enc16 (icmpOf b).seq = (b.drop 6).take 2 := enc16_be16 (by omega)
  have hdata : (icmpOf b).data = b.drop 8 := rfl
  have hzero : [0#8, 0#8] = enc16 0#16 := by decide
  have hback : (b.drop 4).take 2 ++ ((b.drop 6).take 2 ++ b.drop 8) = b.drop 4 := by
    rw [← List.drop_drop (i := 2) (j := 6), List.take_append_drop, ← List.drop_drop (i := 2) (j := 4),
      List.take_append_drop]
  rw [icmpUnsummed, hfirst, hzero, hid, hseq, hdata, patch16]
  simp only [List.append_assoc, hback]

/-- R153: encoding the record of a sequence corrects its checksum and changes nothing else. -/
theorem encodeIcmp_icmpOf {b : Bytes} (h : 8 ≤ b.length) :
    encodeIcmp (icmpOf b) = patch16 b 2 (checksum (patch16 b 2 0#16)) := by
  rw [encodeIcmp, icmpUnsummed_icmpOf h, patch16_patch16 (by omega)]

theorem icmpOf_data_length {b : Bytes} (h : 8 ≤ b.length) : 8 + (icmpOf b).data.length = b.length := by
  rw [icmpOf, List.length_drop, Nat.add_sub_cancel' h]

/-- Settles O48: `icmpOf` undoes `encodeIcmp` but for the checksum, and `encodeIcmp` patches the checksum into the bytes
`icmpOf` reads; writing the value that stands there changes nothing. -/
theorem icmpRoundTrip : Obligations.IcmpRoundTrip := by
  constructor
  · intro s m hfits
    refine ⟨encodeIcmp m, checksum (icmpUnsummed m), exec_icmpEnc hfits,
      congrArg checksum (icmpUnsummed_eq_zeroed_encodeIcmp m), ?_⟩
    rw [exec_icmpParse_of_le (by rwa [encodeIcmp_length]) (by simp), icmpOf_encodeIcmp]
  · intro s b hlen hfits
    have hfield : 2 ≤ b.length := by omega
    refine ⟨icmpOf b, encodeIcmp (icmpOf b), exec_icmpParse_of_le hfits hlen,
      exec_icmpEnc (by rwa [icmpOf_data_length hlen]), ?_⟩
    rw [encodeIcmp_icmpOf hlen]
    refine ⟨take_patch16 hfield _, drop_patch16 hfield _, fun hright => ?_⟩
    rw [← hright]
    exact patch16_be16 (by omega)

end Sys2Proof.Machine
end

section
/-! The UDP codec (45_udp.md): `UDP.PARSE` answers the record `udpOf` reads, `UDP.ENC` writes the ports and the data with the true
length and the remapped checksum. -/

namespace Sys2Proof.Machine

/-! ### `UDP.PARSE` (R160, R164) -/

/-- The UDP record of a sequence of at least 8 bytes (R160). -/
def udpOf (b : Bytes) : UdpMessage :=
  { srcPort := be16 b 0
    dstPort := be16 b 2
    length := be16 b 4
    checksum := be16 b 6
    data := b.drop 8 }

theorem parseUdp_of_le {b : Bytes} (h : 8 ≤ b.length) : parseUdp b = .ok (udpOf b) :=
  if_neg (Nat.not_lt.mpr h)

theorem parseUdp_of_lt {b : Bytes} (h : b.length < 8) : parseUdp b = .error (.formatError .udpTooShort) :=
  if_pos h

theorem exec_udpParse_of_le {s : State} {b : Bytes} (hfits : b.length ≤ s.params.maxLen) (h : 8 ≤ b.length) :
    exec (.udpParse b) s = .next { s with responses := s.responses ++ [.ok (.udpMessage (udpOf b))] } :=
  exec_answers (r := .ok (.udpMessage (udpOf b))) (decide_eq_true hfits)
    (by rw [outcomeOf, parseUdp_of_le h]; rfl) rfl

theorem exec_udpParse_of_lt {s : State} {b : Bytes} (hfits : b.length ≤ s.params.maxLen) (h : b.length < 8) :
    exec (.udpParse b) s = .next { s with responses := s.responses ++ [.error (.formatError .udpTooShort)] } :=
  exec_answers (r := .error (.formatError .udpTooShort)) (decide_eq_true hfits)
    (by rw [outcomeOf, parseUdp_of_lt h]; rfl) rfl

/-- Settles O35: on at least 8 bytes the record returned is `udpOf b`, each field of it a read at the field's offset. -/
theorem udpParseFields : Obligations.UdpParseFields :=
  ⟨fun b => decode_encode (.udpParse b), fun _ b hfits =>
    ⟨fun h => ⟨udpOf b, exec_udpParse_of_le hfits h, be16_toNat b 0, be16_toNat b 2, be16_toNat b 4, be16_toNat b 6, rfl⟩,
    exec_udpParse_of_lt hfits⟩⟩

/-! ### `UDP.ENC` (R161) -/

theorem udpRemap_toNat (c : BitVec 16) : (udpRemap c).toNat = if c = 0#16 then 0xFFFF else c.toNat := by
  rw [udpRemap, apply_ite BitVec.toNat]; rfl

/-- R161: no datagram is sent with a checksum field of 0. -/
theorem udpChecksum_ne_zero (m : UdpMessage) (a d : Ip4) : udpChecksum m a d ≠ 0#16 := by
  rw [udpChecksum, udpRemap]
  split
  next => decide
  next hc => exact hc

/-- The protocol byte of a pseudo-header keeps the sum from being 0, and so the checksum from being 0xFFFF. -/
theorem checksum_pseudoHeader_append_ne_ones {proto : Byte} (hproto : proto ≠ 0#8) (a d : Ip4) (len : Nat) (b : Bytes) :
    checksum (pseudoHeader a d proto len ++ b) ≠ 0xFFFF#16 := fun h =>
  hproto ((checksum_eq_ones_iff _).mp h proto (by simp [pseudoHeader]))

/-- R161: what is summed is the addresses, the protocol and the emitted length, then the datagram as emitted, its checksum
field zero. -/
theorem pseudoHeader_append_udpUnsummed_eq (m : UdpMessage) (a d : Ip4) :
    pseudoHeader a d protoUdp (8 + m.data.length) ++ udpUnsummed m =
      a.toBytes ++ d.toBytes ++ [0, 17] ++ ((encodeUdp m a d).drop 4).take 2
        ++ ((encodeUdp m a d).take 6 ++ [0, 0] ++ (encodeUdp m a d).drop 8) := rfl

/-- R41: within `MAXLEN` the true length fits its 16-bit field. -/
theorem udpLength_toNat {p : Config.Params} {m : UdpMessage} (hp : p.Valid) (hfits : 8 + m.data.length ≤ p.maxLen) :
    (BitVec.ofNat 16 (8 + m.data.length)).toNat = 8 + m.data.length := by
  obtain ⟨-, hmax⟩ := hp
  exact Nat.mod_eq_of_lt (by omega)

/-- Settles O42: the encoding is the fields in order, each as the two bytes of `enc16`; the checksum written is the remap of
one that the protocol byte keeps from being 0xFFFF. -/
theorem udpEncBytes : Obligations.UdpEncBytes := by
  refine ⟨fun m a d => decode_encode (.udpEnc m a d), fun s m a d hp hfits => ?_⟩
  have hlength := (enc16_toNat _).trans (udpLength_toNat hp hfits)
  have hchecksum := (enc16_toNat (udpChecksum m a d)).trans (udpRemap_toNat _)
  exact ⟨encodeUdp m a d, exec_udpEnc a d hfits, encodeUdp_length m a d, enc16_toNat m.srcPort, enc16_toNat m.dstPort,
    hlength, rfl, _, congrArg checksum (pseudoHeader_append_udpUnsummed_eq m a d),
    checksum_pseudoHeader_append_ne_ones (by decide) a d _ _, hchecksum⟩

/-! ### The round trip (R163) -/

/-- R163: ports and data are read back where they were written, the length and the checksum as they were computed. -/
theorem udpOf_encodeUdp (m : UdpMessage) (a d : Ip4) :
    udpOf (encodeUdp m a d) =
      { m with length := BitVec.ofNat 16 (8 + m.data.length), checksum := udpChecksum m a d } := by
  have hsrcPort : be16 (encodeUdp m a d) 0 = m.srcPort := be16_bytes_of_enc16 _
  have hdstPort : be16 (encodeUdp m a d) 2 = m.dstPort := be16_bytes_of_enc16 _
  have hlength : be16 (encodeUdp m a d) 4 = BitVec.ofNat 16 (8 + m.data.length) := be16_bytes_of_enc16 _
  have hchecksum : be16 (encodeUdp m a d) 6 = udpChecksum m a d := be16_bytes_of_enc16 _
  rw [udpOf, hsrcPort, hdstPort, hlength, hchecksum]
  rfl

/-- Settles O49: `udpOf` undoes `encodeUdp` but for the length, which is the true one, and the checksum, which is the value of
bytes 6 and 7 and not 0. -/
theorem udpRoundTrip : Obligations.UdpRoundTrip := by
  intro s m a d hp hfits
  refine ⟨encodeUdp m a d, udpOf (encodeUdp m a d), exec_udpEnc a d hfits,
    exec_udpParse_of_le (by rwa [encodeUdp_length]) (by simp), ?_, ?_, ?_, ?_, be16_toNat _ 6, ?_⟩ <;>
    simp only [udpOf_encodeUdp]
  · exact udpLength_toNat hp hfits
  · exact udpChecksum_ne_zero m a d

end Sys2Proof.Machine
end

section
/-! The TCP codec (46_tcp.md): `TCP.PARSE` answers the record `tcpSegmentOf` reads, its data where the data offset says;
`TCP.ENC` writes a header of 20 bytes whatever offset it declares, so that the two agree at offset 5 only. -/

namespace Sys2Proof.Machine

/-! ### Fields of the TCP header (30_encoding.md R71) -/

theorem tcpDataOffset_eq (b : Bytes) : tcpDataOffset b = (byteAt b 12).toNat / 16 := by
  have hbyte := (byteAt b 12).isLt
  rw [tcpDataOffset, bitField_eq]
  omega

/-- Masking off the reserved bits. -/
theorem tcpFlagsField_toNat (x : Byte) : (BitVec.ofNat 6 (bitField x.toNat 5 0)).toNat = x.toNat % 64 := by
  rw [bitField_eq, BitVec.toNat_ofNat]
  omega

theorem tcpFlagsByte_toNat (fl : BitVec 6) : (fl.setWidth 8).toNat = fl.toNat :=
  BitVec.toNat_setWidth_of_le (by decide)

/-- The flags are read back from the byte they are written in. -/
theorem flags_of_tcpFlagsByte (fl : BitVec 6) : BitVec.ofNat 6 (bitField (fl.setWidth 8).toNat 5 0) = fl := by
  apply BitVec.eq_of_toNat_eq
  rw [tcpFlagsField_toNat, tcpFlagsByte_toNat, Nat.mod_eq_of_lt fl.isLt]

/-! ### `TCP.PARSE` (R170, R173) -/

/-- The TCP record of a sequence of at least 20 bytes that holds the header it declares (R170). -/
def tcpSegmentOf (b : Bytes) : TcpMessage :=
  { srcPort := be16 b 0
    dstPort := be16 b 2
    seq := be32 b 4
    ack := be32 b 8
    dataOffset := BitVec.ofNat 4 (tcpDataOffset b)
    flags := BitVec.ofNat 6 (bitField (byteAt b 13).toNat 5 0)
    window := be16 b 14
    checksum := be16 b 16
    urgent := be16 b 18
    data := b.drop (4 * tcpDataOffset b) }

theorem parseTcp_of_lt {b : Bytes} (h : b.length < 20) : parseTcp b = .error (.formatError .tcpTooShort) :=
  if_pos h

theorem parseTcp_of_lt_offset {b : Bytes} (h : 20 ≤ b.length) (hoff : b.length < 4 * tcpDataOffset b) :
    parseTcp b = .error (.formatError .tcpHeaderExceedsBuffer) := by
  rw [parseTcp, if_neg (Nat.not_lt.mpr h), if_pos hoff]

theorem parseTcp_of_le {b : Bytes} (h : 20 ≤ b.length) (hoff : 4 * tcpDataOffset b ≤ b.length) :
    parseTcp b = .ok (tcpSegmentOf b) := by
  rw [parseTcp, if_neg (Nat.not_lt.mpr h), if_neg (Nat.not_lt.mpr hoff), tcpSegmentOf]

theorem exec_tcpParse_of_lt {s : State} {b : Bytes} (hfits : b.length ≤ s.params.maxLen) (h : b.length < 20) :
    exec (.tcpParse b) s = .next { s with responses := s.responses ++ [.error (.formatError .tcpTooShort)] } :=
  exec_answers (r := .error (.formatError .tcpTooShort)) (decide_eq_true hfits)
    (by rw [outcomeOf, parseTcp_of_lt h]; rfl) rfl

theorem exec_tcpParse_of_lt_offset {s : State} {b : Bytes} (hfits : b.length ≤ s.params.maxLen) (h : 20 ≤ b.length)
    (hoff : b.length < 4 * tcpDataOffset b) :
    exec (.tcpParse b) s = .next { s with responses := s.responses ++ [.error (.formatError .tcpHeaderExceedsBuffer)] } :=
  exec_answers (r := .error (.formatError .tcpHeaderExceedsBuffer)) (decide_eq_true hfits)
    (by rw [outcomeOf, parseTcp_of_lt_offset h hoff]; rfl) rfl

theorem exec_tcpParse_of_le {s : State} {b : Bytes} (hfits : b.length ≤ s.params.maxLen) (h : 20 ≤ b.length)
    (hoff : 4 * tcpDataOffset b ≤ b.length) :
    exec (.tcpParse b) s = .next { s with responses := s.responses ++ [.ok (.tcpMessage (tcpSegmentOf b))] } :=
  exec_answers (r := .ok (.tcpMessage (tcpSegmentOf b))) (decide_eq_true hfits)
    (by rw [outcomeOf, parseTcp_of_le h hoff]; rfl) rfl

theorem tcpSegmentOf_dataOffset_toNat (b : Bytes) : (tcpSegmentOf b).dataOffset.toNat = tcpDataOffset b :=
  (highNibble_toNat (byteAt b 12)).trans (tcpDataOffset_eq b).symm

/-- Settles O36: the two tests in their order, and past both the record is `tcpSegmentOf b`, each field of it a read at the
field's offset. -/
theorem tcpParseFields : Obligations.TcpParseFields := by
  refine ⟨fun b => decode_encode (.tcpParse b), fun s b hfits => ?_⟩
  have hoffset : (b.getD 12 0).toNat / 16 = tcpDataOffset b := (tcpDataOffset_eq b).symm
  rw [hoffset]
  exact ⟨exec_tcpParse_of_lt hfits, exec_tcpParse_of_lt_offset hfits, fun h hoff =>
    ⟨tcpSegmentOf b, exec_tcpParse_of_le hfits h hoff, be16_toNat b 0, be16_toNat b 2, be32_toNat b 4, be32_toNat b 8,
      tcpSegmentOf_dataOffset_toNat b, tcpFlagsField_toNat (byteAt b 13), be16_toNat b 14, be16_toNat b 16,
      be16_toNat b 18, rfl⟩⟩

/-! ### `TCP.ENC` (R171) -/

theorem tcpEncodedOffset_of_ne_zero {off : BitVec 4} (h : off ≠ 0#4) : tcpEncodedOffset off = off :=
  if_neg h

theorem tcpEncodedOffset_of_five_or_zero {off : BitVec 4} (h : off = 5#4 ∨ off = 0#4) : tcpEncodedOffset off = 5#4 := by
  obtain rfl | rfl := h <;> rfl

theorem tcpEncodedOffset_toNat (off : BitVec 4) :
    (tcpEncodedOffset off).toNat = if off = 0#4 then 5 else off.toNat := by
  rw [tcpEncodedOffset, apply_ite BitVec.toNat]; rfl

/-- Byte 12 holds the offset in its high nibble and nothing in the low one. -/
theorem tcpOffsetByte_toNat (off : BitVec 4) : (BitVec.ofNat 8 (off.toNat * 16)).toNat = off.toNat * 16 :=
  nibblePair_toNat off 0#4

/-- R171: what is summed after the pseudo-header is the segment as emitted, its checksum field zero. -/
theorem tcpUnsummed_eq_zeroed_encodeTcp (m : TcpMessage) (a d : Ip4) :
    tcpUnsummed m = (encodeTcp m a d).take 16 ++ [0, 0] ++ (encodeTcp m a d).drop 18 := rfl

/-- R41: a length within `MAXLEN` fits a 16-bit field. -/
theorem ofNat16_toNat_of_le_maxLen {p : Config.Params} {n : Nat} (hp : p.Valid) (hfits : n ≤ p.maxLen) :
    (BitVec.ofNat 16 n).toNat = n := by
  obtain ⟨-, hmax⟩ := hp
  exact Nat.mod_eq_of_lt (by omega)

/-- Settles O43: the encoding is the fields in order, each as the bytes of `enc16` or `enc32`; the length bytes are those of the
pseudo-header. -/
theorem tcpEncBytes : Obligations.TcpEncBytes := by
  refine ⟨fun m a d => decode_encode (.tcpEnc m a d), fun s m a d hp hfits => ?_⟩
  have hoffset := (tcpOffsetByte_toNat _).trans (congrArg (· * 16) (tcpEncodedOffset_toNat m.dataOffset))
  have hlength := (enc16_toNat _).trans (ofNat16_toNat_of_le_maxLen hp hfits)
  have hchecksum := enc16_toNat (tcpChecksum m a d)
  exact ⟨encodeTcp m a d, enc16 (BitVec.ofNat 16 (20 + m.data.length)), exec_tcpEnc a d hfits, encodeTcp_length m a d,
    enc16_toNat m.srcPort, enc16_toNat m.dstPort, enc32_toNat m.seq, enc32_toNat m.ack, hoffset,
    tcpFlagsByte_toNat m.flags, enc16_toNat m.window, enc16_length _, hlength, hchecksum, enc16_toNat m.urgent, rfl⟩

/-! ### The round trip (R172) -/

theorem tcpDataOffset_encodeTcp (m : TcpMessage) (a d : Ip4) :
    tcpDataOffset (encodeTcp m a d) = (tcpEncodedOffset m.dataOffset).toNat := by
  have hbyte : (byteAt (encodeTcp m a d) 12).toNat = (tcpEncodedOffset m.dataOffset).toNat * 16 := tcpOffsetByte_toNat _
  rw [tcpDataOffset_eq, hbyte, Nat.mul_div_cancel _ (by decide)]

/-- R172: every field is read back where it was written, the checksum as it was computed, but the data from the offset
declared. -/
theorem tcpSegmentOf_encodeTcp (m : TcpMessage) (a d : Ip4) :
    tcpSegmentOf (encodeTcp m a d) =
      { m with
        dataOffset := tcpEncodedOffset m.dataOffset
        checksum := tcpChecksum m a d
        data := (encodeTcp m a d).drop (4 * (tcpEncodedOffset m.dataOffset).toNat) } := by
  have hsrcPort : be16 (encodeTcp m a d) 0 = m.srcPort := be16_bytes_of_enc16 _
  have hdstPort : be16 (encodeTcp m a d) 2 = m.dstPort := be16_bytes_of_enc16 _
  have hseq : be32 (encodeTcp m a d) 4 = m.seq := be32_bytes_of_enc32 _
  have hack : be32 (encodeTcp m a d) 8 = m.ack := be32_bytes_of_enc32 _
  have hflags : BitVec.ofNat 6 (bitField (byteAt (encodeTcp m a d) 13).toNat 5 0) = m.flags := flags_of_tcpFlagsByte _
  have hwindow : be16 (encodeTcp m a d) 14 = m.window := be16_bytes_of_enc16 _
  have hchecksum : be16 (encodeTcp m a d) 16 = tcpChecksum m a d := be16_bytes_of_enc16 _
  have hurgent : be16 (encodeTcp m a d) 18 = m.urgent := be16_bytes_of_enc16 _
  rw [tcpSegmentOf, tcpDataOffset_encodeTcp, hsrcPort, hdstPort, hseq, hack, hflags, hwindow, hchecksum, hurgent,
    BitVec.ofNat_toNat, BitVec.setWidth_eq]

/-- R172: the data parsed is the data encoded only where the offset declared is the 5 words emitted. -/
theorem tcpSegmentOf_encodeTcp_data_ne {m : TcpMessage} (a d : Ip4) (hne : (tcpEncodedOffset m.dataOffset).toNat ≠ 5)
    (hoff : 4 * (tcpEncodedOffset m.dataOffset).toNat ≤ 20 + m.data.length) :
    (tcpSegmentOf (encodeTcp m a d)).data ≠ m.data := by
  intro heq
  have hlength := congrArg List.length heq
  rw [tcpSegmentOf_encodeTcp, List.length_drop, encodeTcp_length] at hlength
  omega

/-- R171, R172: the segment emitted at offset 5 is parsed to the record with the computed checksum. -/
theorem exec_tcpParse_encodeTcp_of_five {s : State} {m : TcpMessage} (a d : Ip4)
    (hfits : (encodeTcp m a d).length ≤ s.params.maxLen) (hfive : tcpEncodedOffset m.dataOffset = 5#4) :
    exec (.tcpParse (encodeTcp m a d)) s = .next { s with responses := s.responses ++
      [.ok (.tcpMessage { m with dataOffset := 5#4, checksum := tcpChecksum m a d })] } := by
  have hoffset : tcpDataOffset (encodeTcp m a d) = 5 := by rw [tcpDataOffset_encodeTcp, hfive]; rfl
  rw [exec_tcpParse_of_le hfits (by simp) (by simp [hoffset]), tcpSegmentOf_encodeTcp, hfive]
  rfl

/-- Settles O50: at offset 5, written also for an unset one, `tcpSegmentOf` undoes `encodeTcp` but for the checksum; any other
offset is declared as held, and cuts the segment elsewhere or reaches past it. -/
theorem tcpRoundTrip : Obligations.TcpRoundTrip := by
  intro s m a d _ hfits
  have hsegment : (encodeTcp m a d).length ≤ s.params.maxLen := by rwa [encodeTcp_length]
  refine ⟨encodeTcp m a d, exec_tcpEnc a d hfits, fun hfive => ⟨tcpChecksum m a d, ?_, ?_⟩, fun hne hset => ?_⟩
  · rw [← tcpUnsummed_eq_zeroed_encodeTcp, encodeTcp_length]
    rfl
  · exact exec_tcpParse_encodeTcp_of_five a d hsegment (tcpEncodedOffset_of_five_or_zero hfive)
  · have hheld : tcpEncodedOffset m.dataOffset = m.dataOffset := tcpEncodedOffset_of_ne_zero hset
    have hoffset : tcpDataOffset (encodeTcp m a d) = m.dataOffset.toNat := by rw [tcpDataOffset_encodeTcp, hheld]
    rcases Nat.lt_or_ge (20 + m.data.length) (4 * m.dataOffset.toNat) with hpast | hwithin
    · exact .inl ⟨hpast, exec_tcpParse_of_lt_offset hsegment (by simp) (by rwa [hoffset, encodeTcp_length])⟩
    · have hcut : (tcpEncodedOffset m.dataOffset).toNat ≠ 5 := fun h => hne (BitVec.eq_of_toNat_eq (hheld ▸ h))
      exact .inr ⟨hwithin, tcpSegmentOf (encodeTcp m a d),
        exec_tcpParse_of_le hsegment (by simp) (by rwa [hoffset, encodeTcp_length]),
        tcpSegmentOf_encodeTcp_data_ne a d hcut (by rwa [hheld])⟩

end Sys2Proof.Machine
end

section
/-! The reply engine on the raw bytes of its frame (47_reply.md): what it answers (R187 to R198), what it drops (R200), which
frames it fails on (R199), when it sets `est` (R195), and which bytes it does not look at. -/

namespace Sys2Proof.Machine

theorem exec_reply {s : State} {frame : Bytes} (hfits : frame.length ≤ s.params.maxLen) :
    exec (.reply frame) s = .next { s with
      responses := s.responses ++ [responseOf (outcomeOf s.params s.cfg (.reply frame))] } :=
  exec_next (i := .reply frame) (decide_eq_true hfits)

/-- R185. -/
theorem exec_reply_unconfigured {s : State} {frame : Bytes} (hfits : frame.length ≤ s.params.maxLen)
    (hv : s.cfg.v = 0#1) :
    exec (.reply frame) s = .next { s with responses := s.responses ++ [.error .notConfigured] } :=
  exec_reply_error hfits (replyFrame_unconfigured _ _ hv)

/-- Settles O19: the response is the one of the outcome, and the outcome reads the parameters, the registers and the frame. -/
theorem replyIsStateless : Obligations.ReplyIsStateless := by
  constructor
  · intro p c frame hfits
    refine ⟨responseOf (outcomeOf p c (.reply frame)), ?_⟩
    rintro s rfl rfl
    exact exec_reply hfits
  · intro s frame hfits hv
    exact exec_reply_unconfigured hfits hv

/-! ### The frames sent (R197, R198) -/

theorem replyFrame_of_arp {c : Registers} {f : Bytes} (p : Config.Params) (hv : c.v = 1#1) (h : 14 ≤ f.length)
    (htype : be16 f 12 = 0x0806#16) : replyFrame p c f = replyArp c (ethernetOf f) := by
  rw [replyFrame_by_ethertype p hv h, if_pos htype]

theorem replyFrame_of_ipv4 {c : Registers} {f : Bytes} (p : Config.Params) (hv : c.v = 1#1) (h : 14 ≤ f.length)
    (htype : be16 f 12 = 0x0800#16) : replyFrame p c f = replyIpv4 p c (ethernetOf f) := by
  rw [replyFrame_by_ethertype p hv h, if_neg (by rw [htype]; decide), if_pos htype]

/-- R189, R190: an IPv4 packet for the local address goes to the handler of its protocol. -/
theorem replyFrame_of_local {c : Registers} {f : Bytes} (p : Config.Params) (hv : c.v = 1#1) (h : 34 ≤ f.length)
    (htype : be16 f 12 = 0x0800#16) (hlocal : ip4At f 30 = c.ip) :
    replyFrame p c f =
      if byteAt f 23 = 1#8 then replyIcmp p c (ethernetOf f) (ipv4Of f) (f.drop 34)
      else if byteAt f 23 = 17#8 then replyUdp p c (ethernetOf f) (ipv4Of f) (f.drop 34)
      else if byteAt f 23 = 6#8 then replyTcp p c (ethernetOf f) (ipv4Of f) (f.drop 34)
      else .ok (none, 0#1) := by
  rw [replyFrame_of_ipv4 p hv (by omega) htype, replyIpv4_by_protocol p h, if_neg (not_not.mpr hlocal)]

/-- R197, R198: the frame around a reply to `f`, from the bytes of `f`. -/
theorem ipReplyFrame_of_frame (p : Config.Params) (c : Registers) {f : Bytes} (h : 12 ≤ f.length) (body : Bytes) :
    ipReplyFrame p c (ethernetOf f) (ipv4Of f) body =
      (f.drop 6).take 6 ++ c.mac.toBytes ++ [0x08, 0x00]
        ++ encodeIpv4 (replyHeader p c (byteAt f 23) (ip4At f 26) body.length) ++ body := by
  have htype : enc16 ethertypeIpv4 = [0x08, 0x00] := by decide
  rw [← macAt_toBytes h, ← htype, List.append_assoc]
  rfl

/-- Settles O52: `replyArp_by_fields` past its two tests. -/
theorem replyAnswersArpRequest : Obligations.ReplyAnswersArpRequest := by
  intro s frame hv hfits hlen htype hop htarget
  have hreply := (replyFrame_of_arp s.params hv (by omega) htype).trans (replyArp_by_fields s.cfg hlen)
  rw [if_neg (not_not.mpr hop), if_neg (not_not.mpr htarget)] at hreply
  refine ⟨_, exec_reply_ok hfits hreply, by simp, ?_⟩
  rw [macAt_toBytes (by omega), macAt_toBytes (by omega), ip4At_toBytes (by omega)]
  simp only [List.append_assoc]

/-- Settles O53: the Echo Reply has the length of the request's ICMP part, `frame.length - 34`. -/
theorem replyEchoesIcmp : Obligations.ReplyEchoesIcmp := by
  intro s frame hv hfits hlen htype hlocal hproto hecho
  have hreply := replyFrame_of_local s.params hv (by omega) htype hlocal
  rw [if_pos hproto, replyIcmp_by_type hlen, if_neg (not_not.mpr hecho)] at hreply
  refine ⟨_, exec_reply_ok hfits hreply, by simp; omega, ?_⟩
  have hbody : 8 + (frame.length - 42) = frame.length - 34 := by omega
  rw [ipReplyFrame_of_frame _ _ (by omega), encodeIcmp_length, List.length_drop, hbody, hproto]

/-- Settles O54: the echo has the length of the request's UDP part, `frame.length - 34`. -/
theorem replyEchoesUdp : Obligations.ReplyEchoesUdp := by
  intro s frame hv hfits hlen htype hlocal hproto
  have hreply := replyFrame_of_local s.params hv (by omega) htype hlocal
  rw [if_neg (by rw [hproto]; decide), if_pos hproto, replyUdp_echo hlen] at hreply
  refine ⟨_, exec_reply_ok hfits hreply, by simp; omega, ?_⟩
  have hbody : 8 + (frame.length - 42) = frame.length - 34 := by omega
  rw [ipReplyFrame_of_frame _ _ (by omega), encodeUdp_length, List.length_drop, hbody, hproto]
  rfl

/-! ### The TCP table (R193 to R195) -/

/-- R193: the table on the bytes of the segment, each reply's flags as a number. -/
theorem tcpReaction_of_frame (c : Registers) (f : Bytes) :
    tcpReaction c (tcpOf f) =
      if be16 f 36 ≠ c.port then (some (0x14#6, 0#32), 0#1)
      else if (byteAt f 47).getLsbD 1 then (some (0x12#6, 1000#32), 0#1)
      else if (byteAt f 47).getLsbD 0 then (some (0x11#6, 1001#32), 0#1)
      else if (byteAt f 47).getLsbD 4 ∧ be32 f 42 = 1001#32 then (none, 1#1)
      else (none, 0#1) := by
  rw [tcpReaction, hasFlag_syn_of_frame, hasFlag_fin_of_frame, hasFlag_ack_of_frame]
  rfl

/-- The frame that answers the TCP segment in `f` with these flags and this sequence number (R194, R197, R198). -/
def tcpAnswer (p : Config.Params) (c : Registers) (f : Bytes) (fl : BitVec 6) (sq : BitVec 32) : Bytes :=
  (f.drop 6).take 6 ++ c.mac.toBytes ++ [0x08, 0x00]
    ++ encodeIpv4 (replyHeader p c 6#8 (ip4At f 26) 20)
    ++ encodeTcp { srcPort := be16 f 36, dstPort := be16 f 34, seq := sq, ack := be32 f 38 + 1#32, dataOffset := 5#4,
                   flags := fl, window := p.replyTcpWindow, checksum := 0#16, urgent := 0#16, data := [] }
        c.ip (ip4At f 26)

theorem tcpAnswer_length (p : Config.Params) (c : Registers) {f : Bytes} (h : 12 ≤ f.length) (fl : BitVec 6)
    (sq : BitVec 32) : (tcpAnswer p c f fl sq).length = 54 := by
  simp [tcpAnswer]; omega

/-- R193: what the table says of a segment whose header fits is sent as `tcpAnswer`. -/
theorem replyTcp_of_frame {c : Registers} {f : Bytes} (p : Config.Params) (h : 54 ≤ f.length)
    (hoff : 4 * ((byteAt f 46).toNat / 16) ≤ f.length - 34) (hproto : byteAt f 23 = 6#8) :
    replyTcp p c (ethernetOf f) (ipv4Of f) (f.drop 34) =
      .ok ((tcpReaction c (tcpOf f)).map (Option.map fun x => tcpAnswer p c f x.1 x.2) id) := by
  rw [replyTcp_by_reaction h hoff]
  rcases tcpReaction c (tcpOf f) with ⟨_ | ⟨fl, sq⟩, est⟩
  · rfl
  · simp only [ipReplyFrame_of_frame p c (show 12 ≤ f.length by omega), tcpReplySegment_length, hproto]
    rfl

/-- Settles O55: the table of the model is the table of the statement, rule by rule. -/
theorem replyFollowsTcpTable : Obligations.ReplyFollowsTcpTable := by
  intro s frame hv hfits hlen htype hlocal hproto hoff
  have hreply := replyFrame_of_local s.params hv (by omega) htype hlocal
  rw [if_neg (by rw [hproto]; decide), if_neg (by rw [hproto]; decide), if_pos hproto,
    replyTcp_of_frame s.params hlen hoff hproto] at hreply
  refine ⟨_, _, exec_reply_ok hfits hreply, ?_, tcpAnswer s.params s.cfg frame, fun _ _ => rfl, ?_⟩
  · rintro o ho
    obtain ⟨x, -, rfl⟩ := Option.map_eq_some_iff.mp ho
    exact tcpAnswer_length _ _ (by omega) _ _
  · rw [tcpReaction_of_frame]
    split_ifs <;> rfl

/-! ### What is dropped (R200) -/

/-- Settles O56, by the test each of the five ways fails. -/
theorem replyDropsWithoutError : Obligations.ReplyDropsWithoutError := by
  intro s frame hv hfits hdrop
  refine exec_reply_ok (r := (none, 0#1)) hfits ?_
  obtain ⟨hlen, harp, hip⟩ | ⟨hlen, htype, harp⟩ | ⟨hlen, htype, hother⟩ | ⟨hlen, htype, hlocal, h1, h17, h6⟩
    | ⟨hlen, htype, hlocal, hproto, hecho⟩ := hdrop
  · rw [replyFrame_by_ethertype _ hv hlen, if_neg harp, if_neg hip]
  · rw [replyFrame_of_arp _ hv (by omega) htype, replyArp_by_fields _ hlen]
    obtain hop | htarget := harp
    · rw [if_pos hop]
    · rw [if_pos htarget, ite_self]
  · rw [replyFrame_of_ipv4 _ hv (by omega) htype, replyIpv4_by_protocol _ hlen, if_pos hother]
  · rw [replyFrame_of_local _ hv hlen htype hlocal, if_neg h1, if_neg h17, if_neg h6]
  · rw [replyFrame_of_local _ hv (by omega) htype hlocal, if_pos hproto, replyIcmp_by_type hlen, if_pos hecho]

/-! ### The errors (R199) -/

theorem replyArp_error_iff (c : Registers) (f : Bytes) (e : EngineError) :
    replyArp c (ethernetOf f) = .error e ↔ e = .formatError .arpTooShort ∧ f.length < 42 := by
  rcases Nat.lt_or_ge f.length 42 with hlen | hlen
  · simp [replyArp_short c hlen, hlen, eq_comm]
  · rw [replyArp_by_fields c hlen]
    split_ifs <;> simp [hlen]

theorem replyIcmp_error_iff (p : Config.Params) (c : Registers) (eth : EthernetFrame) (ip : Ipv4Header) (f : Bytes)
    (e : EngineError) :
    replyIcmp p c eth ip (f.drop 34) = .error e ↔ e = .formatError .icmpTooShort ∧ f.length < 42 := by
  rcases Nat.lt_or_ge f.length 42 with hlen | hlen
  · simp [replyIcmp_short hlen, hlen, eq_comm]
  · rw [replyIcmp_by_type hlen]
    split_ifs <;> simp [hlen]

theorem replyUdp_error_iff (p : Config.Params) (c : Registers) (eth : EthernetFrame) (ip : Ipv4Header) (f : Bytes)
    (e : EngineError) :
    replyUdp p c eth ip (f.drop 34) = .error e ↔ e = .formatError .udpTooShort ∧ f.length < 42 := by
  rcases Nat.lt_or_ge f.length 42 with hlen | hlen
  · simp [replyUdp_short hlen, hlen, eq_comm]
  · simp [replyUdp_echo hlen, hlen]

theorem replyTcp_error_iff (p : Config.Params) (c : Registers) (eth : EthernetFrame) (ip : Ipv4Header) (f : Bytes)
    (e : EngineError) :
    replyTcp p c eth ip (f.drop 34) = .error e ↔
      (e = .formatError .tcpTooShort ∧ f.length < 54)
      ∨ (e = .formatError .tcpHeaderExceedsBuffer ∧ 54 ≤ f.length
        ∧ f.length - 34 < 4 * ((byteAt f 46).toNat / 16)) := by
  rcases Nat.lt_or_ge f.length 54 with hlen | hlen
  · simp [replyTcp_short hlen, hlen, eq_comm]
  rcases Nat.lt_or_ge (f.length - 34) (4 * ((byteAt f 46).toNat / 16)) with hoff | hoff
  · simp [replyTcp_exceeds hlen hoff, hlen, hoff, eq_comm]
  · rw [replyTcp_by_reaction hlen hoff]
    rcases tcpReaction c (tcpOf f) with ⟨_ | ⟨fl, sq⟩, est⟩ <;> simp [hlen, hoff]

theorem replyIpv4_error_iff (p : Config.Params) (c : Registers) (f : Bytes) (e : EngineError) :
    replyIpv4 p c (ethernetOf f) = .error e ↔
      (e = .formatError .ip4TooShort ∧ f.length < 34)
      ∨ (34 ≤ f.length ∧ ip4At f 30 = c.ip
        ∧ ((e = .formatError .icmpTooShort ∧ byteAt f 23 = 1#8 ∧ f.length < 42)
          ∨ (e = .formatError .udpTooShort ∧ byteAt f 23 = 17#8 ∧ f.length < 42)
          ∨ (e = .formatError .tcpTooShort ∧ byteAt f 23 = 6#8 ∧ f.length < 54)
          ∨ (e = .formatError .tcpHeaderExceedsBuffer ∧ byteAt f 23 = 6#8 ∧ 54 ≤ f.length
            ∧ f.length - 34 < 4 * ((byteAt f 46).toNat / 16)))) := by
  rcases Nat.lt_or_ge f.length 34 with hlen | hlen
  · simp [replyIpv4_short p hlen, hlen, eq_comm]
  · rw [replyIpv4_by_protocol p hlen]
    split_ifs with hother hicmp hudp htcp
    · simp [hother, hlen]
    · simp [replyIcmp_error_iff, hlen, not_not.mp hother, hicmp]
    · simp [replyUdp_error_iff, hlen, not_not.mp hother, hudp]
    · simp [replyTcp_error_iff, hlen, not_not.mp hother, htcp]
    · simp [hlen, hicmp, hudp, htcp]

/-- R199: the layers in their order, the Ethernet header first. -/
theorem replyFrame_error_iff {c : Registers} (p : Config.Params) (hv : c.v = 1#1) (f : Bytes) (e : EngineError) :
    replyFrame p c f = .error e ↔
      (e = .formatError .ethTooShort ∧ f.length < 14)
      ∨ (14 ≤ f.length ∧ be16 f 12 = 0x0806#16 ∧ replyArp c (ethernetOf f) = .error e)
      ∨ (14 ≤ f.length ∧ be16 f 12 = 0x0800#16 ∧ replyIpv4 p c (ethernetOf f) = .error e) := by
  rcases Nat.lt_or_ge f.length 14 with hlen | hlen
  · simp [replyFrame_short p hv hlen, hlen, eq_comm]
  · rw [replyFrame_by_ethertype p hv hlen]
    split_ifs with harp hip
    · simp [hlen, harp]
    · simp [hlen, hip]
    · simp [hlen, harp, hip]

/-- A response is an error only where the outcome is that error: no result is one (60_exceptions.md R243). -/
theorem responseOf_eq_error_iff (o : Except EngineError Result) (e : EngineError) :
    responseOf o = .error e ↔ o = .error e := by
  cases o <;> simp

theorem map_eq_error_iff {α β : Type} (x : Except EngineError α) (g : α → β) (e : EngineError) :
    x.map g = .error e ↔ x = .error e := by
  cases x <;> simp [Except.map]

/-- Settles O57: the errors of the three layers, put together. -/
theorem replyErrorsOutermostFirst : Obligations.ReplyErrorsOutermostFirst := by
  intro s frame hv hfits
  refine ⟨_, exec_reply hfits, fun e => ?_⟩
  rw [responseOf_eq_error_iff, outcomeOf, map_eq_error_iff, replyFrame_error_iff _ hv, replyArp_error_iff,
    replyIpv4_error_iff]
  constructor
  · rintro (heth | ⟨h14, harp, he, hlen⟩ | ⟨h14, hip, ⟨he, hlen⟩ | ⟨h34, hlocal, htransport⟩⟩)
    · exact .inl heth
    · exact .inr (.inl ⟨he, h14, harp, hlen⟩)
    · exact .inr (.inr (.inl ⟨he, h14, hip, hlen⟩))
    · exact .inr (.inr (.inr ⟨h34, hip, hlocal, htransport⟩))
  · rintro (heth | ⟨he, h14, harp, hlen⟩ | ⟨he, h14, hip, hlen⟩ | ⟨h34, hip, hlocal, htransport⟩)
    · exact .inl heth
    · exact .inr (.inl ⟨h14, harp, he, hlen⟩)
    · exact .inr (.inr ⟨h14, hip, .inl ⟨he, hlen⟩⟩)
    · exact .inr (.inr ⟨by omega, hip, .inr ⟨h34, hlocal, htransport⟩⟩)

/-! ### The bit `est` (R195) -/

theorem replyArp_est {c : Registers} {f : Bytes} {out : Option Bytes} {est : BitVec 1}
    (h : replyArp c (ethernetOf f) = .ok (out, est)) : est = 0#1 := by
  rcases Nat.lt_or_ge f.length 42 with hlen | hlen
  · simp [replyArp_short c hlen] at h
  · rw [replyArp_by_fields c hlen] at h
    split_ifs at h <;> cases h <;> rfl

theorem replyIcmp_est {p : Config.Params} {c : Registers} {eth : EthernetFrame} {ip : Ipv4Header} {f : Bytes}
    {out : Option Bytes} {est : BitVec 1} (h : replyIcmp p c eth ip (f.drop 34) = .ok (out, est)) : est = 0#1 := by
  rcases Nat.lt_or_ge f.length 42 with hlen | hlen
  · simp [replyIcmp_short hlen] at h
  · rw [replyIcmp_by_type hlen] at h
    split_ifs at h <;> cases h <;> rfl

theorem replyUdp_est {p : Config.Params} {c : Registers} {eth : EthernetFrame} {ip : Ipv4Header} {f : Bytes}
    {out : Option Bytes} {est : BitVec 1} (h : replyUdp p c eth ip (f.drop 34) = .ok (out, est)) : est = 0#1 := by
  rcases Nat.lt_or_ge f.length 42 with hlen | hlen
  · simp [replyUdp_short hlen] at h
  · rw [replyUdp_echo hlen] at h
    cases h; rfl

/-- Rule 4 of R193 is the one that answers a segment whose header fits: the port is served, SYN and FIN are clear, ACK is
set and acknowledges 1001. -/
def RuleFourApplies (c : Registers) (f : Bytes) : Prop :=
  4 * ((byteAt f 46).toNat / 16) ≤ f.length - 34
  ∧ be16 f 36 = c.port
  ∧ (byteAt f 47).getLsbD 1 = false ∧ (byteAt f 47).getLsbD 0 = false
  ∧ (byteAt f 47).getLsbD 4 = true ∧ be32 f 42 = 1001#32

theorem tcpReaction_est_one_iff (c : Registers) (f : Bytes) :
    (tcpReaction c (tcpOf f)).2 = 1#1 ↔
      be16 f 36 = c.port ∧ (byteAt f 47).getLsbD 1 = false ∧ (byteAt f 47).getLsbD 0 = false
      ∧ (byteAt f 47).getLsbD 4 = true ∧ be32 f 42 = 1001#32 := by
  rw [tcpReaction_of_frame]
  split_ifs with hport hsyn hfin hack
  · exact iff_of_false (by decide) fun ⟨hserved, _⟩ => hport hserved
  · exact iff_of_false (by decide) fun ⟨_, hclear, _⟩ => Bool.eq_false_iff.mp hclear hsyn
  · exact iff_of_false (by decide) fun ⟨_, _, hclear, _⟩ => Bool.eq_false_iff.mp hclear hfin
  · exact iff_of_true rfl ⟨not_not.mp hport, Bool.eq_false_iff.mpr hsyn, Bool.eq_false_iff.mpr hfin, hack⟩
  · exact iff_of_false (by decide) fun ⟨_, _, _, hset⟩ => hack hset

theorem replyTcp_est_one_iff (p : Config.Params) (c : Registers) {f : Bytes} (hproto : byteAt f 23 = 6#8)
    (out : Option Bytes) :
    replyTcp p c (ethernetOf f) (ipv4Of f) (f.drop 34) = .ok (out, 1#1) ↔
      out = none ∧ 54 ≤ f.length ∧ RuleFourApplies c f := by
  rcases Nat.lt_or_ge f.length 54 with hlen | hlen
  · simp [replyTcp_short hlen, Nat.not_le.mpr hlen]
  rcases Nat.lt_or_ge (f.length - 34) (4 * ((byteAt f 46).toNat / 16)) with hoff | hoff
  · simp [replyTcp_exceeds hlen hoff, RuleFourApplies, Nat.not_le.mpr hoff]
  · rw [replyTcp_of_frame p hlen hoff hproto, RuleFourApplies, ← tcpReaction_est_one_iff]
    rcases hr : tcpReaction c (tcpOf f) with ⟨_ | x, est⟩
    · simp [hlen, hoff, eq_comm]
    · simp [tcpReaction_est_of_some hr]

theorem replyIpv4_est_one_iff (p : Config.Params) (c : Registers) (f : Bytes) (out : Option Bytes) :
    replyIpv4 p c (ethernetOf f) = .ok (out, 1#1) ↔
      out = none ∧ 54 ≤ f.length ∧ ip4At f 30 = c.ip ∧ byteAt f 23 = 6#8 ∧ RuleFourApplies c f := by
  rcases Nat.lt_or_ge f.length 34 with hlen | hlen
  · simp [replyIpv4_short p hlen, show ¬ 54 ≤ f.length by omega]
  · rw [replyIpv4_by_protocol p hlen]
    split_ifs with hother hicmp hudp htcp
    · simp [hother]
    · simp [hicmp, mt replyIcmp_est]
    · simp [hudp, mt replyUdp_est]
    · simp [replyTcp_est_one_iff p c htcp, not_not.mp hother, htcp]
    · simp [htcp]

/-- R195: `est` is 1 for rule 4 of the table only, and no frame then goes out. -/
theorem replyFrame_est_one_iff {c : Registers} (p : Config.Params) (hv : c.v = 1#1) (f : Bytes) (out : Option Bytes) :
    replyFrame p c f = .ok (out, 1#1) ↔
      out = none ∧ 54 ≤ f.length ∧ be16 f 12 = 0x0800#16 ∧ ip4At f 30 = c.ip ∧ byteAt f 23 = 6#8
        ∧ RuleFourApplies c f := by
  rcases Nat.lt_or_ge f.length 14 with hlen | hlen
  · simp [replyFrame_short p hv hlen, show ¬ 54 ≤ f.length by omega]
  · rw [replyFrame_by_ethertype p hv hlen]
    split_ifs with harp hip
    · simp [harp, mt replyArp_est]
    · simp [replyIpv4_est_one_iff, hip]
    · simp [hip]

/-- The `est` of a response to `REPLY` is the one of the reply engine's reaction. -/
theorem responseOf_reply_est_iff (p : Config.Params) (c : Registers) (f : Bytes) (est : BitVec 1) :
    (responseOf (outcomeOf p c (.reply f))).est = some est ↔ ∃ out, replyFrame p c f = .ok (out, est) := by
  rw [outcomeOf]
  cases hr : replyFrame p c f with
  | error e => simp [Except.map, Response.est]
  | ok r => simp [Except.map, Response.est, Prod.ext_iff]

/-- Settles O58, by `replyFrame_est_one_iff`. -/
theorem estSignalsRuleFourOnly : Obligations.EstSignalsRuleFourOnly := by
  intro s frame hv hfits
  refine ⟨_, exec_reply hfits, ?_, fun hest => ?_⟩
  · simp only [responseOf_reply_est_iff, replyFrame_est_one_iff _ hv, RuleFourApplies, exists_eq_left]
  · obtain ⟨out, hreply⟩ := (responseOf_reply_est_iff ..).mp hest
    obtain ⟨rfl, -⟩ := (replyFrame_est_one_iff _ hv _ _).mp hreply
    rw [outcomeOf, hreply]
    rfl

/-! ### The bytes that are not looked at (R186, R189, R191 to R195; R108) -/

/-- Two frames of one length whose bytes are the same wherever a rule looks, for the protocol the first one names. -/
structure AgreeWhereTested (f f' : Bytes) : Prop where
  length_eq : f.length = f'.length
  byteAt_eq : ∀ k, ¬ ReplyIgnores (byteAt f 23).toNat k → byteAt f k = byteAt f' k

namespace AgreeWhereTested

variable {f f' : Bytes} {i : Nat}

theorem be16_eq (h : AgreeWhereTested f f')
    (hi : ∀ k, i ≤ k → k < i + 2 → ¬ ReplyIgnores (byteAt f 23).toNat k) : be16 f i = be16 f' i := by
  have hbyte : ∀ k, i ≤ k → k < i + 2 → byteAt f k = byteAt f' k := fun k hle hlt => h.byteAt_eq k (hi k hle hlt)
  simp [be16, hbyte]

theorem be32_eq (h : AgreeWhereTested f f')
    (hi : ∀ k, i ≤ k → k < i + 4 → ¬ ReplyIgnores (byteAt f 23).toNat k) : be32 f i = be32 f' i := by
  have hbyte : ∀ k, i ≤ k → k < i + 4 → byteAt f k = byteAt f' k := fun k hle hlt => h.byteAt_eq k (hi k hle hlt)
  simp [be32, hbyte]

theorem ip4At_eq (h : AgreeWhereTested f f')
    (hi : ∀ k, i ≤ k → k < i + 4 → ¬ ReplyIgnores (byteAt f 23).toNat k) : ip4At f i = ip4At f' i := by
  have hbyte : ∀ k, i ≤ k → k < i + 4 → byteAt f k = byteAt f' k := fun k hle hlt => h.byteAt_eq k (hi k hle hlt)
  simp [ip4At, hbyte]

theorem macAt_eq (h : AgreeWhereTested f f')
    (hi : ∀ k, i ≤ k → k < i + 6 → ¬ ReplyIgnores (byteAt f 23).toNat k) : macAt f i = macAt f' i := by
  have hbyte : ∀ k, i ≤ k → k < i + 6 → byteAt f k = byteAt f' k := fun k hle hlt => h.byteAt_eq k (hi k hle hlt)
  simp [macAt, hbyte]

theorem drop_eq (h : AgreeWhereTested f f') (hi : ∀ k, i ≤ k → ¬ ReplyIgnores (byteAt f 23).toNat k) :
    f.drop i = f'.drop i := by
  refine List.ext_getElem (by simp [h.length_eq]) fun k hk hk' => ?_
  simp only [List.length_drop] at hk hk'
  have hbyte := h.byteAt_eq _ (hi (i + k) (by omega))
  simpa [byteAt, List.getD_eq_getElem, show i + k < f.length by omega, show i + k < f'.length by omega] using hbyte

theorem protocol_eq (h : AgreeWhereTested f f') : byteAt f 23 = byteAt f' 23 := h.byteAt_eq 23 (by omega)

/-- R197, R198: of the request, the frame around a reply uses the source addresses and the protocol. -/
theorem ipReplyFrame_eq (h : AgreeWhereTested f f') (p : Config.Params) (c : Registers) (body : Bytes) :
    ipReplyFrame p c (ethernetOf f) (ipv4Of f) body = ipReplyFrame p c (ethernetOf f') (ipv4Of f') body := by
  have hmac : macAt f 6 = macAt f' 6 := h.macAt_eq (by omega)
  have hip : ip4At f 26 = ip4At f' 26 := h.ip4At_eq (by omega)
  simp only [ipReplyFrame, ethernetOf, ipv4Of, hmac, hip, h.protocol_eq]

theorem replyIcmp_eq (h : AgreeWhereTested f f') (p : Config.Params) (c : Registers) (hproto : byteAt f 23 = 1#8) :
    replyIcmp p c (ethernetOf f) (ipv4Of f) (f.drop 34) = replyIcmp p c (ethernetOf f') (ipv4Of f') (f'.drop 34) := by
  have hone : (byteAt f 23).toNat = 1 := by rw [hproto]; rfl
  rcases Nat.lt_or_ge f.length 42 with hlen | hlen
  · rw [replyIcmp_short hlen, replyIcmp_short (h.length_eq ▸ hlen)]
  · have htype : byteAt f 34 = byteAt f' 34 := h.byteAt_eq 34 (by omega)
    have hid : be16 f 38 = be16 f' 38 := h.be16_eq (by omega)
    have hseq : be16 f 40 = be16 f' 40 := h.be16_eq (by omega)
    have hdata : f.drop 42 = f'.drop 42 := h.drop_eq (by omega)
    rw [replyIcmp_by_type hlen, replyIcmp_by_type (h.length_eq ▸ hlen), h.ipReplyFrame_eq, htype, hid, hseq, hdata]

theorem replyUdp_eq (h : AgreeWhereTested f f') (p : Config.Params) (c : Registers) (hproto : byteAt f 23 = 17#8) :
    replyUdp p c (ethernetOf f) (ipv4Of f) (f.drop 34) = replyUdp p c (ethernetOf f') (ipv4Of f') (f'.drop 34) := by
  have hudp : (byteAt f 23).toNat = 17 := by rw [hproto]; rfl
  rcases Nat.lt_or_ge f.length 42 with hlen | hlen
  · rw [replyUdp_short hlen, replyUdp_short (h.length_eq ▸ hlen)]
  · have hsrcPort : be16 f 34 = be16 f' 34 := h.be16_eq (by omega)
    have hdstPort : be16 f 36 = be16 f' 36 := h.be16_eq (by omega)
    have hip : (ipv4Of f).src = (ipv4Of f').src := h.ip4At_eq (by omega)
    have hdata : f.drop 42 = f'.drop 42 := h.drop_eq (by omega)
    rw [replyUdp_echo hlen, replyUdp_echo (h.length_eq ▸ hlen), h.ipReplyFrame_eq, hsrcPort, hdstPort, hip, hdata]

/-- R193: the table reads the destination port, the flags and the acknowledgment number. -/
theorem tcpReaction_eq (h : AgreeWhereTested f f') (c : Registers) (hproto : byteAt f 23 = 6#8) :
    tcpReaction c (tcpOf f) = tcpReaction c (tcpOf f') := by
  have htcp : (byteAt f 23).toNat = 6 := by rw [hproto]; rfl
  have hport : be16 f 36 = be16 f' 36 := h.be16_eq (by omega)
  have hack : be32 f 42 = be32 f' 42 := h.be32_eq (by omega)
  have hflags : byteAt f 47 = byteAt f' 47 := h.byteAt_eq 47 (by omega)
  rw [tcpReaction_of_frame, tcpReaction_of_frame, hport, hack, hflags]

theorem tcpAnswer_eq (h : AgreeWhereTested f f') (p : Config.Params) (c : Registers) (hproto : byteAt f 23 = 6#8)
    (hlen : 54 ≤ f.length) : tcpAnswer p c f = tcpAnswer p c f' := by
  have htcp : (byteAt f 23).toNat = 6 := by rw [hproto]; rfl
  have hmac : macAt f 6 = macAt f' 6 := h.macAt_eq (by omega)
  have hip : ip4At f 26 = ip4At f' 26 := h.ip4At_eq (by omega)
  have hsrcPort : be16 f 34 = be16 f' 34 := h.be16_eq (by omega)
  have hdstPort : be16 f 36 = be16 f' 36 := h.be16_eq (by omega)
  have hseq : be32 f 38 = be32 f' 38 := h.be32_eq (by omega)
  have hlen' : 54 ≤ f'.length := h.length_eq ▸ hlen
  funext fl sq
  rw [tcpAnswer, tcpAnswer, ← macAt_toBytes (by omega), ← macAt_toBytes (by omega), hmac, hip, hsrcPort, hdstPort, hseq]

theorem replyTcp_eq (h : AgreeWhereTested f f') (p : Config.Params) (c : Registers) (hproto : byteAt f 23 = 6#8) :
    replyTcp p c (ethernetOf f) (ipv4Of f) (f.drop 34) = replyTcp p c (ethernetOf f') (ipv4Of f') (f'.drop 34) := by
  have htcp : (byteAt f 23).toNat = 6 := by rw [hproto]; rfl
  have hoffset : byteAt f 46 = byteAt f' 46 := h.byteAt_eq 46 (by omega)
  have hproto' : byteAt f' 23 = 6#8 := h.protocol_eq ▸ hproto
  rcases Nat.lt_or_ge f.length 54 with hlen | hlen
  · rw [replyTcp_short hlen, replyTcp_short (h.length_eq ▸ hlen)]
  have hlen' : 54 ≤ f'.length := h.length_eq ▸ hlen
  rcases Nat.lt_or_ge (f.length - 34) (4 * ((byteAt f 46).toNat / 16)) with hoff | hoff
  · rw [replyTcp_exceeds hlen hoff, replyTcp_exceeds hlen' (by rwa [← h.length_eq, ← hoffset])]
  · rw [replyTcp_of_frame p hlen hoff hproto,
      replyTcp_of_frame p hlen' (by rwa [← h.length_eq, ← hoffset]) hproto', h.tcpReaction_eq c hproto,
      h.tcpAnswer_eq p c hproto hlen]

theorem replyIpv4_eq (h : AgreeWhereTested f f') (p : Config.Params) (c : Registers) :
    replyIpv4 p c (ethernetOf f) = replyIpv4 p c (ethernetOf f') := by
  rcases Nat.lt_or_ge f.length 34 with hlen | hlen
  · rw [replyIpv4_short p hlen, replyIpv4_short p (h.length_eq ▸ hlen)]
  · have hdst : ip4At f 30 = ip4At f' 30 := h.ip4At_eq (by omega)
    rw [replyIpv4_by_protocol p hlen, replyIpv4_by_protocol p (h.length_eq ▸ hlen), ← hdst, ← h.protocol_eq]
    split_ifs with hother hicmp hudp htcp
    · rfl
    · exact h.replyIcmp_eq p c hicmp
    · exact h.replyUdp_eq p c hudp
    · exact h.replyTcp_eq p c htcp
    · rfl

theorem replyFrame_eq (h : AgreeWhereTested f f') (p : Config.Params) (c : Registers) (htype : be16 f 12 = 0x0800#16) :
    replyFrame p c f = replyFrame p c f' := by
  obtain hv | hv := BitVec.eq_zero_or_eq_one c.v
  · rw [replyFrame_unconfigured p f hv, replyFrame_unconfigured p f' hv]
  rcases Nat.lt_or_ge f.length 14 with hlen | hlen
  · rw [replyFrame_short p hv hlen, replyFrame_short p hv (h.length_eq ▸ hlen)]
  · have htype' : be16 f 12 = be16 f' 12 := h.be16_eq (by omega)
    rw [replyFrame_of_ipv4 p hv hlen htype, replyFrame_of_ipv4 p hv (h.length_eq ▸ hlen) (htype' ▸ htype),
      h.replyIpv4_eq]

end AgreeWhereTested

/-- Settles O60: two such frames are both inside the domain or both outside it, and get one reaction. -/
theorem replyIgnoresUntestedFields : Obligations.ReplyIgnoresUntestedFields := by
  intro s frame frame' hlen htype hsame
  have hreply := AgreeWhereTested.replyFrame_eq ⟨hlen, hsame⟩ s.params s.cfg htype
  have hdomain : (Instr.reply frame).wellFormed s.params = (Instr.reply frame').wellFormed s.params := by
    rw [Instr.wellFormed, Instr.wellFormed, hlen]
  have houtcome : outcomeOf s.params s.cfg (.reply frame) = outcomeOf s.params s.cfg (.reply frame') := by
    rw [outcomeOf, outcomeOf, hreply]
  rw [exec_eq, exec_eq, hdomain, houtcome]
  rfl

end Sys2Proof.Machine
end

section
/-! What the host sees of an operation (60_exceptions.md): one response, its codes (R240, R241), the errors each operation can
raise (R242) and what they leave (R243). Beside it the configuration (48_config.md) and the reset event
(70_reset_and_hazards.md). -/

namespace Sys2Proof.Machine

/-- Settles O5: `State.idle` is the same state. -/
theorem stepWithNoEventChangesNothing : Obligations.StepWithNoEventChangesNothing :=
  fun _ hin => step_empty hin

/-- Settles O7: the registers are those of `registersAfter`. -/
theorem everyOperationInDomainAnswers : Obligations.EveryOperationInDomainAnswers := by
  intro i s hwf
  refine ⟨_, _, exec_next hwf, ?_⟩
  obtain hsame | ⟨mac, ip, port, hi, -⟩ := registersAfter_cases s.cfg i
  · exact .inl hsame
  · exact .inr ⟨mac, ip, port, hi⟩

/-- Settles O22: `CFG.SET` is inside the domain with any operands, and its outcome is `nothing`. -/
theorem cfgSetWritesAllFour : Obligations.CfgSetWritesAllFour :=
  fun _ mac ip port => exec_next (i := .cfgSet mac ip port) rfl

/-- Settles O17: the registers a reset leaves have `CFG_V` 0. -/
theorem resetEventUnconfigures : Obligations.ResetEventUnconfigures := by
  intro s rest hin
  refine ⟨(s.takeEvent rest).resetEngine, step_reset hin, ?_, rfl, rfl, rfl, fun frame hfits => ?_⟩
  · simp
  · exact exec_reply_unconfigured (by simpa using hfits) (by simp)

/-! ### Codes (R240, R241) -/

/-- Settles O9: the codes are those the model writes down. -/
theorem statusAndReasonCodes : Obligations.StatusAndReasonCodes :=
  ⟨fun _ => ⟨rfl, rfl⟩, fun _ => rfl, rfl, rfl, rfl, rfl, rfl, rfl, rfl, fun _ => ⟨rfl, rfl⟩⟩

/-! ### Errors (R242, R243) -/

/-- An operation that returned an error is one whose outcome is that error, and its next state holds that error beside what
it held before. -/
theorem exec_returned_error {i : Instr} {s t : State} {e : EngineError} (h : exec i s = .next t)
    (hresp : t.responses = s.responses ++ [.error e]) :
    outcomeOf s.params s.cfg i = .error e
    ∧ t = { s with cfg := registersAfter s.cfg i, responses := s.responses ++ [.error e] } := by
  obtain ⟨-, rfl⟩ := exec_next_inv h
  have herror : responseOf (outcomeOf s.params s.cfg i) = .error e := by simpa using hresp
  exact ⟨(responseOf_eq_error_iff ..).mp herror, by rw [herror]⟩

theorem ne_cfgSet_of_outcome_error {p : Config.Params} {cfg : Registers} {i : Instr} {e : EngineError}
    (h : outcomeOf p cfg i = .error e) : ∀ mac ip port, i ≠ .cfgSet mac ip port := by
  rintro mac ip port rfl
  cases h

/-- Settles O11: `CFG.SET`, which alone writes registers, returns no error. -/
theorem errorsChangeNoState : Obligations.ErrorsChangeNoState := by
  intro i s t e h hresp
  obtain ⟨hout, rfl⟩ := exec_returned_error h hresp
  rw [registersAfter_of_ne_cfgSet s.cfg (ne_cfgSet_of_outcome_error hout)]
  exact ⟨rfl, rfl, rfl⟩

theorem parseEthernet_error {b : Bytes} {e : EngineError} (h : parseEthernet b = .error e) :
    e = .formatError .ethTooShort := by
  rcases Nat.lt_or_ge b.length 14 with hlen | hlen
  · simpa [parseEthernet_of_lt hlen, eq_comm] using h
  · simp [parseEthernet_of_le hlen] at h

theorem parseArp_error {b : Bytes} {e : EngineError} (h : parseArp b = .error e) : e = .formatError .arpTooShort := by
  rcases Nat.lt_or_ge b.length 28 with hlen | hlen
  · simpa [parseArp_of_lt hlen, eq_comm] using h
  · simp [parseArp_of_le hlen] at h

theorem parseIpv4_error {b : Bytes} {e : EngineError} (h : parseIpv4 b = .error e) : e = .formatError .ip4TooShort := by
  rcases Nat.lt_or_ge b.length 20 with hlen | hlen
  · simpa [parseIpv4_of_lt hlen, eq_comm] using h
  · simp [parseIpv4_of_le hlen] at h

theorem parseIcmp_error {b : Bytes} {e : EngineError} (h : parseIcmp b = .error e) : e = .formatError .icmpTooShort := by
  rcases Nat.lt_or_ge b.length 8 with hlen | hlen
  · simpa [parseIcmp_of_lt hlen, eq_comm] using h
  · simp [parseIcmp_of_le hlen] at h

theorem parseUdp_error {b : Bytes} {e : EngineError} (h : parseUdp b = .error e) : e = .formatError .udpTooShort := by
  rcases Nat.lt_or_ge b.length 8 with hlen | hlen
  · simpa [parseUdp_of_lt hlen, eq_comm] using h
  · simp [parseUdp_of_le hlen] at h

theorem parseTcp_error {b : Bytes} {e : EngineError} (h : parseTcp b = .error e) :
    e = .formatError .tcpTooShort ∨ e = .formatError .tcpHeaderExceedsBuffer := by
  rcases Nat.lt_or_ge b.length 20 with hlen | hlen
  · exact .inl (by simpa [parseTcp_of_lt hlen, eq_comm] using h)
  rcases Nat.lt_or_ge b.length (4 * tcpDataOffset b) with hoff | hoff
  · exact .inr (by simpa [parseTcp_of_lt_offset hlen hoff, eq_comm] using h)
  · simp [parseTcp_of_le hlen hoff] at h

theorem buildArpReply_error {q : ArpMessage} {lm li : Bytes} {e : EngineError} (h : buildArpReply q lm li = .error e) :
    e = .validationError .invalidAddressLength := by
  unfold buildArpReply at h
  split at h <;> cases h
  rfl

/-- R242: `REPLY` fails while unconfigured, or as one of the parsers does. -/
theorem replyFrame_error {p : Config.Params} {c : Registers} {f : Bytes} {e : EngineError}
    (h : replyFrame p c f = .error e) : e = .notConfigured ∨ ∃ r, e = .formatError r := by
  obtain hv | hv := BitVec.eq_zero_or_eq_one c.v
  · rw [replyFrame_unconfigured p f hv] at h
    exact .inl (Except.error.inj h).symm
  · rw [replyFrame_error_iff p hv, replyArp_error_iff, replyIpv4_error_iff] at h
    right
    obtain ⟨rfl, -⟩ | ⟨-, -, rfl, -⟩ | ⟨-, -, ⟨rfl, -⟩ | ⟨-, -, ⟨rfl, -⟩ | ⟨rfl, -⟩ | ⟨rfl, -⟩ | ⟨rfl, -⟩⟩⟩ := h <;>
      exact ⟨_, rfl⟩

/-- Settles O10, row by row: the errors of an operation are those of the function that computes it. -/
theorem onlyTheTabledErrors : Obligations.OnlyTheTabledErrors := by
  intro i s t e h hresp
  obtain ⟨hout, -⟩ := exec_returned_error h hresp
  cases i with
  | ethParse b => exact parseEthernet_error ((map_eq_error_iff ..).mp hout)
  | arpParse b => exact parseArp_error ((map_eq_error_iff ..).mp hout)
  | arpReply q lm li => exact buildArpReply_error ((map_eq_error_iff ..).mp hout)
  | ip4Parse b => exact parseIpv4_error ((map_eq_error_iff ..).mp hout)
  | icmpParse b => exact parseIcmp_error ((map_eq_error_iff ..).mp hout)
  | udpParse b => exact parseUdp_error ((map_eq_error_iff ..).mp hout)
  | tcpParse b => exact parseTcp_error ((map_eq_error_iff ..).mp hout)
  | reply frame => exact replyFrame_error ((map_eq_error_iff ..).mp hout)
  | csum | ethEnc | arpEnc | ip4Enc | icmpEnc | udpEnc | tcpEnc | cfgSet => cases hout

end Sys2Proof.Machine
end
